-- ==== Sys2Proof/Word.lean ====
section
/-! DEFINITION. The word, the register address and the widths the spec fixes by name (spec/00_scope.md R11, R12;
spec/20_memory.md R56, R60). -/

namespace Sys2Proof

/-- A 32-bit stimulus word, data word or register value `w[31:0]` (R12, R60, R69). -/
abbrev Word := BitVec 32

/-- A 12-bit byte address of the host register space, 0x000 to 0xFFF (R56). -/
abbrev Addr := BitVec 12

/-- One byte of a register word (R58). -/
abbrev Byte := BitVec 8

/-- A 16-bit captured timer value, `read_capture_timer(channel) -> u16` (R11, R71). -/
abbrev Capture := BitVec 16

end Sys2Proof
end

