-- ==== Sys2Proof/Config.lean ====
section
/-! DEFINITION. The block's configuration: every parameter of spec/00_scope.md R9, as a plain record the machine carries and
never writes (R53, R190). The ranges of R9 are checked in Sys2Proof/WellFormed.lean, because a configuration outside them is
refused (R10). Parameters are numbers, not words: no operation shifts, masks or reads one as bits. -/

namespace Sys2Proof

/-- A motor channel: m = 0 is X, m = 1 is YL (the Y master), m = 2 is YR (the Y slave) (R4, R17). -/
inductive Chan where
  | x
  | yl
  | yr
  deriving DecidableEq, Repr

/-- The parameters R9 gives per motor channel (marked `[m]` there). -/
structure ChannelConfig where
  /-- `QD_B_HIGH_FWD[m]`: phase B high at a rising A edge means Forward (R90). -/
  qdBHighFwd : Bool
  /-- `TS_ENABLE[m]`: the edge-timestamp buffer is active (R92). -/
  tsEnable : Bool
  /-- `HOME_OFFSET[m]`: the position at reset (R26). -/
  homeOffset : Int
  /-- `HOME_POS[m]`: the position forced while the home switch is asserted (R106). -/
  homePos : Int
  /-- `LIMIT_POS[m]`: the position forced while the limit switch is asserted (R106). -/
  limitPos : Int
  /-- `BOUNDARY[m]`: the soft-limit margin (R105). -/
  boundary : Nat
  /-- `LENGTH[m]`: the travel length in ticks (R105). -/
  length : Nat
  /-- `DEADBAND[m]`: the error deadband in ticks (R108). -/
  deadband : Nat
  /-- `GAIN_P[m]`: the proportional gain's numerator (R110). -/
  gainP : Nat
  /-- `GAIN_P_FACTOR[m]`: the proportional gain's divisor (R110). -/
  gainPFactor : Nat
  /-- `GAIN_I[m]`: the integral divisor; 0 turns the integral term off (R109). -/
  gainI : Nat
  /-- `INTEGRAL_LIMIT[m]`: the bound on the integral accumulator (R109). -/
  integralLimit : Nat
  /-- `MAX_SPEED[m]`: the speed clamp (R112). -/
  maxSpeed : Nat
  /-- `SLEW_RATE[m]`: the largest speed increase per tick (R119). -/
  slewRate : Nat
  /-- `DUTY_FWD_K[m]`: the Forward slope's numerator (R120). -/
  dutyFwdK : Int
  /-- `DUTY_REV_K[m]`: the Reverse slope's numerator (R120). -/
  dutyRevK : Int
  /-- `DUTY_K_DEN[m]`: the slopes' denominator (R120). -/
  dutyKDen : Nat
  /-- `DUTY_FWD_OFFSET[m]`: the Forward duty offset (R120). -/
  dutyFwdOffset : Nat
  /-- `DUTY_REV_OFFSET[m]`: the Reverse duty offset (R120). -/
  dutyRevOffset : Nat
  /-- `DUTY_BRAKE[m]`: the duty output while braking (R18). -/
  dutyBrake : Nat
  /-- `MM_PER_REV[m]`: millimetres per encoder revolution (R98). -/
  mmPerRev : Nat
  /-- `TICKS_PER_REV[m]`: encoder ticks per revolution (R98). -/
  ticksPerRev : Nat
  /-- `SPEED_FLOOR[m]`: the stall speed floor in mm/s (R127). -/
  speedFloor : Nat
  /-- `STRIKE_LIMIT[m]`: consecutive stalled evaluations before a fault (R129). -/
  strikeLimit : Nat
  deriving DecidableEq, Repr

/-- A whole configuration of the block: the three channels' parameters, and the two that R9 gives once. -/
structure Config where
  x : ChannelConfig
  yl : ChannelConfig
  yr : ChannelConfig
  /-- `SUBRATE_N`: the estimator and the detector run every Nth tick (R85). -/
  subrateN : Nat
  /-- `MISMATCH_LIMIT`: the Y-axis divergence limit in ticks (R137). -/
  mismatchLimit : Nat
  deriving DecidableEq, Repr

/-- The parameters of channel m. -/
def Config.chan (k : Config) : Chan → ChannelConfig
  | .x => k.x
  | .yl => k.yl
  | .yr => k.yr

/-- `TICK_HZ`, fixed at 1000 (R9). It enters only the speed formula (R205). -/
def tickHz : Nat := 1000

/-- The column P0 of R9 for one channel: the spec's own test configuration, not a source value. -/
def p0Channel : ChannelConfig where
  qdBHighFwd := true
  tsEnable := true
  homeOffset := 0
  homePos := 0
  limitPos := 10000
  boundary := 100
  length := 10000
  deadband := 3
  gainP := 1
  gainPFactor := 2
  gainI := 10
  integralLimit := 20
  maxSpeed := 100
  slewRate := 10
  dutyFwdK := 1
  dutyRevK := -1
  dutyKDen := 2
  dutyFwdOffset := 50
  dutyRevOffset := 50
  dutyBrake := 50
  mmPerRev := 40
  ticksPerRev := 400
  speedFloor := 5
  strikeLimit := 3

/-- The column P0 of R9: the configuration under which spec/95_test_vectors.md states its vectors. DESIGN CHOICE (log 1):
`State.reset` is the reset state under P0; every parameter stays OPEN, because `State.resetWith` takes any configuration and
every statement about all states ranges over all of them. Unsafe for claims about `State.reset` alone. -/
def p0 : Config where
  x := p0Channel
  yl := p0Channel
  yr := p0Channel
  subrateN := 10
  mismatchLimit := 200

end Sys2Proof
end

