-- ==== Sys2Proof/Machine/State.lean ====
section
/-! DEFINITION. The architectural state (spec/10_state.md), the model's own fields beside it, the reasons a step can stop, and
reset (spec/70_reset_and_hazards.md R189). -/

namespace Sys2Proof.Machine

/-- The commanded H-bridge state; encoding 3 does not exist (R30, R15). -/
inductive Direction where
  | brake
  | forward
  | reverse
  deriving DecidableEq, Repr

/-- The last observed quadrature direction (R31). -/
inductive QDir where
  | forward
  | reverse
  deriving DecidableEq, Repr

/-- `ctrl_mode` (R34). -/
inductive Mode where
  | disabled
  | manual
  | positionControl
  deriving DecidableEq, Repr

/-- The per-motor error latch (R36). -/
inductive MotorError where
  | none
  | overload
  deriving DecidableEq, Repr

/-- The Y pair's error latch (R47). -/
inductive YError where
  | none
  | overload
  | lrMismatch
  deriving DecidableEq, Repr

/-- One latched edge: a captured timer value and the overflow count taken with it (R42). -/
structure EdgeStamp where
  cap : Capture
  ovf : BitVec 8
  deriving DecidableEq, Repr

/-- The state of one channel, the table of spec/10_state.md section 2 (R24 to R42). A signed register is held as its
two's-complement word; `s32` of Operands.lean reads it. -/
structure Channel where
  pos : Word
  cmd : Word
  err : Word
  efferr : Word
  direction : Direction
  qdir : QDir
  setSpeed : BitVec 8
  pwmDuty : BitVec 8
  mode : Mode
  homeSw : Bool
  limitSw : Bool
  error : MotorError
  integ : Word
  speed : Word
  prev : Word
  strike : BitVec 16
  lastDir : Direction
  edge1 : EdgeStamp
  edge2 : EdgeStamp
  deriving DecidableEq, Repr

/-- The state `s` of the block: three channel records and the global fields of section 4 (R24, R46 to R50). -/
structure Block where
  x : Channel
  yl : Channel
  yr : Channel
  lr : Word
  yerr : YError
  clrRefused : Bool
  ovfCnt : BitVec 8
  tickPhase : BitVec 10
  deriving DecidableEq, Repr

/-- The 1-bit code of a host access's response, OKAY = 0 or ERR = 1 (R169). -/
inductive RespCode where
  | okay
  | err
  deriving DecidableEq, Repr

/-- The response a host access ends with: its code, and a data word for a READ (R69, R143, R169). -/
structure Response where
  code : RespCode
  data : Option Word
  deriving DecidableEq, Repr

/-- The machine: its configuration, which nothing writes (R53, R190), the block's state, and the model's own two fields.
`resp` is the response the last operation ended with, `none` for an operation that has none (log 3). `stimulus` is the stream
of stimulus words the environment has still to deliver (log 2). -/
structure State where
  cfg : Config
  blk : Block
  resp : Option Response
  stimulus : List Word
  deriving DecidableEq, Repr

/-- Nothing stops the block with a fault: a bus error is a response and the latches are state, and neither ends a run
(R168, R169, R177). So no meaning raises one, which is safe. -/
inductive Fault
  deriving DecidableEq, Repr

/-- Why the model rejects a step. -/
inductive Refusal where
  /-- An instruction that has no meaning yet; raised by an arm of `exec` only. Safe. -/
  | notModelled (mnemonic : String)
  /-- The head of the stream has a reserved kind, 0x0 or 0x6 to 0xF; raised by the fetch (R79). Safe. -/
  | reservedKind
  /-- The head of the stream has a must-be-zero field that is not zero; raised by the fetch (R79). Safe. -/
  | mustBeZero
  /-- The head of the stream is an EDGE word with m = 3; raised by the fetch (R79). Safe. -/
  | channelThree
  /-- The stream ends inside a WRITE; raised by the fetch (log 5). Safe. -/
  | missingData
  /-- The configuration breaks a range of R9; raised by the step (R10). Safe. -/
  | invalidConfiguration
  deriving DecidableEq, Repr

/-- The outcome of an operation. -/
abbrev Result := Host.Outcome State Fault Refusal

/-- `Reset()` for one channel (R189). -/
def Channel.resetWith (k : ChannelConfig) : Channel where
  pos := BitVec.ofInt 32 k.homeOffset
  cmd := 0
  err := 0
  efferr := 0
  direction := .brake
  qdir := .forward
  setSpeed := 0
  pwmDuty := BitVec.ofNat 8 k.dutyBrake
  mode := .disabled
  homeSw := false
  limitSw := false
  error := .none
  integ := 0
  speed := 0
  prev := BitVec.ofInt 32 k.homeOffset
  strike := 0
  lastDir := .brake
  edge1 := ⟨0, 0⟩
  edge2 := ⟨0, 0⟩

/-- `Reset()` (R189). -/
def Block.resetWith (k : Config) : Block where
  x := Channel.resetWith k.x
  yl := Channel.resetWith k.yl
  yr := Channel.resetWith k.yr
  lr := 0
  yerr := .none
  clrRefused := false
  ovfCnt := 0
  tickPhase := 0

/-- The machine right after reset under the configuration `k`, with no operation delivered yet (R189, R190, R191). -/
def State.resetWith (k : Config) : State where
  cfg := k
  blk := Block.resetWith k
  resp := none
  stimulus := []

/-- The machine right after reset, under the spec's test configuration P0 (R9; log 1). -/
def State.reset : State := State.resetWith p0

end Sys2Proof.Machine
end

