-- ==== Sys2Proof/Syntax.lean ====
section
/-! DEFINITION. The operations of the block, spec/30_encoding.md R78: one constructor of `Instr` for each row of
spec/opcode_table.json. Beside them: `Operation`, which adds the READs and WRITEs that decode but match no row (R80), and
`AsmLine`, the assembler lines of R81. -/

namespace Sys2Proof

/-- One constructor per row of the opcode map (R78). Operands have the widths R71 to R76 give them, so every term is an
operation some stimulus words spell. -/
inductive Instr where
  /-- EDGE.X: a rising phase-A edge with phase-B level `b` and captured timer value `cap` (R89). -/
  | edgeX (b : Bool) (cap : Capture)
  /-- EDGE.YL: a rising phase-A edge with phase-B level `b` and captured timer value `cap` (R89). -/
  | edgeYl (b : Bool) (cap : Capture)
  /-- EDGE.YR: a rising phase-A edge with phase-B level `b` and captured timer value `cap` (R89). -/
  | edgeYr (b : Bool) (cap : Capture)
  /-- OVF: one overflow of the free-running capture timer (R97). -/
  | ovf
  /-- TICK: one control tick with the six switch levels `sw` (R83). -/
  | tick (sw : BitVec 6)
  /-- WR_POS.X with its data word (R145). -/
  | wrPosX (d : Word)
  /-- WR_POS.YL with its data word (R145). -/
  | wrPosYl (d : Word)
  /-- WR_POS.YR with its data word (R145). -/
  | wrPosYr (d : Word)
  /-- WR_CMD.X with its data word (R146). -/
  | wrCmdX (d : Word)
  /-- WR_CMD.YL with its data word (R146). -/
  | wrCmdYl (d : Word)
  /-- WR_MODE.X with its data word (R147). -/
  | wrModeX (d : Word)
  /-- WR_MODE.YL with its data word (R147). -/
  | wrModeYl (d : Word)
  /-- WR_MODE.YR with its data word (R147). -/
  | wrModeYr (d : Word)
  /-- WR_CTRL with its data word; bit 0 is CLEAR (R148, R149). -/
  | wrCtrl (d : Word)
  /-- RD_POS.X (R150). -/
  | rdPosX
  /-- RD_POS.YL (R150). -/
  | rdPosYl
  /-- RD_POS.YR (R150). -/
  | rdPosYr
  /-- RD_CMD.X (R151). -/
  | rdCmdX
  /-- RD_CMD.YL (R151). -/
  | rdCmdYl
  /-- RD_CMD.YR (R151). -/
  | rdCmdYr
  /-- RD_ERR.X (R152). -/
  | rdErrX
  /-- RD_ERR.YL (R152). -/
  | rdErrYl
  /-- RD_ERR.YR (R152). -/
  | rdErrYr
  /-- RD_EFFERR.X (R153). -/
  | rdEfferrX
  /-- RD_EFFERR.YL (R153). -/
  | rdEfferrYl
  /-- RD_EFFERR.YR (R153). -/
  | rdEfferrYr
  /-- RD_MODE.X (R154). -/
  | rdModeX
  /-- RD_MODE.YL (R154). -/
  | rdModeYl
  /-- RD_MODE.YR (R154). -/
  | rdModeYr
  /-- RD_STATUS.X (R155). -/
  | rdStatusX
  /-- RD_STATUS.YL (R155). -/
  | rdStatusYl
  /-- RD_STATUS.YR (R155). -/
  | rdStatusYr
  /-- RD_DRIVE.X (R156). -/
  | rdDriveX
  /-- RD_DRIVE.YL (R156). -/
  | rdDriveYl
  /-- RD_DRIVE.YR (R156). -/
  | rdDriveYr
  /-- RD_INTEG.X (R157). -/
  | rdIntegX
  /-- RD_INTEG.YL (R157). -/
  | rdIntegYl
  /-- RD_INTEG.YR (R157). -/
  | rdIntegYr
  /-- RD_SPEED.X (R158). -/
  | rdSpeedX
  /-- RD_SPEED.YL (R158). -/
  | rdSpeedYl
  /-- RD_SPEED.YR (R158). -/
  | rdSpeedYr
  /-- RD_PREV.X (R159). -/
  | rdPrevX
  /-- RD_PREV.YL (R159). -/
  | rdPrevYl
  /-- RD_PREV.YR (R159). -/
  | rdPrevYr
  /-- RD_STRIKE.X (R160). -/
  | rdStrikeX
  /-- RD_STRIKE.YL (R160). -/
  | rdStrikeYl
  /-- RD_STRIKE.YR (R160). -/
  | rdStrikeYr
  /-- RD_EDGE1.X (R161). -/
  | rdEdge1X
  /-- RD_EDGE1.YL (R161). -/
  | rdEdge1Yl
  /-- RD_EDGE1.YR (R161). -/
  | rdEdge1Yr
  /-- RD_EDGE2.X (R161). -/
  | rdEdge2X
  /-- RD_EDGE2.YL (R161). -/
  | rdEdge2Yl
  /-- RD_EDGE2.YR (R161). -/
  | rdEdge2Yr
  /-- RD_PERIOD.X (R162). -/
  | rdPeriodX
  /-- RD_PERIOD.YL (R162). -/
  | rdPeriodYl
  /-- RD_PERIOD.YR (R162). -/
  | rdPeriodYr
  /-- RD_YSTAT (R163). -/
  | rdYstat
  /-- RD_LRERR (R164). -/
  | rdLrerr
  /-- RD_CTRL (R165). -/
  | rdCtrl
  /-- RD_OVFCNT (R166). -/
  | rdOvfcnt
  /-- RD_PHASE (R167). -/
  | rdPhase
  deriving DecidableEq, Repr

/-- What a stimulus spells: an operation of the opcode map, or a READ or WRITE whose address is none of the map's, "still a
valid operation", which the block answers with the error response (R77, R80). -/
inductive Operation where
  /-- A row of the opcode map. -/
  | instr (i : Instr)
  /-- A READ of an address with no read rule (R143). -/
  | unmappedRead (addr : Addr)
  /-- A WRITE, with its data word, to an address with no write rule (R143). -/
  | unmappedWrite (addr : Addr) (d : Word)
  deriving DecidableEq, Repr

/-- The registers of a channel block, `<REG>` of R81, at the offsets R57 gives. -/
inductive Reg where
  | pos
  | cmd
  | err
  | efferr
  | mode
  | status
  | drive
  | integ
  | speed
  | prev
  | strike
  | edge1
  | edge2
  | period
  deriving DecidableEq, Repr

/-- The global registers, `<GREG>` of R81. -/
inductive GReg where
  | ystat
  | lrerr
  | ctrl
  | ovfcnt
  | phase
  deriving DecidableEq, Repr

/-- EDGE on channel m (R89): the row of the map for that channel. -/
def Instr.edge : Chan → Bool → Capture → Instr
  | .x => .edgeX
  | .yl => .edgeYl
  | .yr => .edgeYr

/-- WR_POS on channel m (R145). -/
def Instr.wrPos : Chan → Word → Instr
  | .x => .wrPosX
  | .yl => .wrPosYl
  | .yr => .wrPosYr

/-- WR_MODE on channel m (R147). -/
def Instr.wrMode : Chan → Word → Instr
  | .x => .wrModeX
  | .yl => .wrModeYl
  | .yr => .wrModeYr

/-- The RD row of register `r` on channel m (R78). -/
def Instr.rd : Chan → Reg → Instr
  | .x, .pos => .rdPosX
  | .x, .cmd => .rdCmdX
  | .x, .err => .rdErrX
  | .x, .efferr => .rdEfferrX
  | .x, .mode => .rdModeX
  | .x, .status => .rdStatusX
  | .x, .drive => .rdDriveX
  | .x, .integ => .rdIntegX
  | .x, .speed => .rdSpeedX
  | .x, .prev => .rdPrevX
  | .x, .strike => .rdStrikeX
  | .x, .edge1 => .rdEdge1X
  | .x, .edge2 => .rdEdge2X
  | .x, .period => .rdPeriodX
  | .yl, .pos => .rdPosYl
  | .yl, .cmd => .rdCmdYl
  | .yl, .err => .rdErrYl
  | .yl, .efferr => .rdEfferrYl
  | .yl, .mode => .rdModeYl
  | .yl, .status => .rdStatusYl
  | .yl, .drive => .rdDriveYl
  | .yl, .integ => .rdIntegYl
  | .yl, .speed => .rdSpeedYl
  | .yl, .prev => .rdPrevYl
  | .yl, .strike => .rdStrikeYl
  | .yl, .edge1 => .rdEdge1Yl
  | .yl, .edge2 => .rdEdge2Yl
  | .yl, .period => .rdPeriodYl
  | .yr, .pos => .rdPosYr
  | .yr, .cmd => .rdCmdYr
  | .yr, .err => .rdErrYr
  | .yr, .efferr => .rdEfferrYr
  | .yr, .mode => .rdModeYr
  | .yr, .status => .rdStatusYr
  | .yr, .drive => .rdDriveYr
  | .yr, .integ => .rdIntegYr
  | .yr, .speed => .rdSpeedYr
  | .yr, .prev => .rdPrevYr
  | .yr, .strike => .rdStrikeYr
  | .yr, .edge1 => .rdEdge1Yr
  | .yr, .edge2 => .rdEdge2Yr
  | .yr, .period => .rdPeriodYr

/-- The RD row of a global register (R78). -/
def Instr.rdGlobal : GReg → Instr
  | .ystat => .rdYstat
  | .lrerr => .rdLrerr
  | .ctrl => .rdCtrl
  | .ovfcnt => .rdOvfcnt
  | .phase => .rdPhase

/-- One line of the spec's assembler (R81). Operands are the numbers a line is written with; `AsmLine.wf` says which are
legal. A WRITE of any register can be written, because R80 gives an illegal one the error response. -/
inductive AsmLine where
  /-- `EDGE <ch>, <b>[, cap=<n>]`. -/
  | edge (m : Chan) (b : Nat) (cap : Nat)
  /-- `OVF`. -/
  | ovf
  /-- `TICK [sw=<6-bit binary>]`. -/
  | tick (sw : Nat)
  /-- `WR <ch>.<REG>, <value>`. -/
  | wr (m : Chan) (r : Reg) (value : Int)
  /-- `WR CTRL, <value>`, and the same for another global register. -/
  | wrGlobal (g : GReg) (value : Int)
  /-- `RD <ch>.<REG>`. -/
  | rd (m : Chan) (r : Reg)
  /-- `RD <GREG>`. -/
  | rdGlobal (g : GReg)
  deriving DecidableEq, Repr

end Sys2Proof
end

