-- ==== Sys2Proof/Decode.lean ====
section
/-! DEFINITION. Decoding of stimulus words (spec/30_encoding.md R69 to R80), total on any list of words and refusing by
name; after it the encoder, and the assembler of R81 and R82. -/

namespace Sys2Proof

/-- Why a stimulus spells no operation (R79). `missingData` is the model's own: a WRITE word with no data word after it. -/
inductive DecodeRefusal where
  /-- Kind 0x0 or 0x6 to 0xF. -/
  | reservedKind
  /-- A must-be-zero field that is not zero. -/
  | mustBeZero
  /-- An EDGE word with m = 3. -/
  | channelThree
  /-- A WRITE whose data word the stream does not hold (DESIGN CHOICE, log 5). -/
  | missingData
  deriving DecidableEq, Repr

/-- What one stimulus word spells before its address is looked up: the results of R77's `decode(w)`. -/
inductive Stimulus where
  | edge (m : Chan) (b : Bool) (cap : Capture)
  | ovf
  | tick (sw : BitVec 6)
  | write (addr : Addr)
  | read (addr : Addr)
  | refuse (why : DecodeRefusal)
  deriving DecidableEq, Repr

/-- `w[lo+len-1 : lo]` (R12). -/
def field (w : Word) (lo len : Nat) : BitVec len := w.extractLsb' lo len

/-- The channel field of an EDGE word: 0 = X, 1 = YL, 2 = YR; 3 is refused (R71). -/
def chanOfCode (m : BitVec 2) : Option Chan :=
  if m = 0 then some .x else if m = 1 then some .yl else if m = 2 then some .yr else none

/-- Format E (R71). -/
def decodeEdge (w : Word) : Stimulus :=
  if field w 4 8 = 0 ∧ field w 2 1 = 0 then
    match chanOfCode (field w 0 2) with
    | some m => .edge m (w.getLsbD 3) (field w 12 16)
    | none => .refuse .channelThree
  else .refuse .mustBeZero

/-- R77's `decode(w)`: the kind field selects the format (R70), and every word outside the formats is refused (R79). -/
def decodeWord (w : Word) : Stimulus :=
  if field w 28 4 = 0x1 then decodeEdge w
  else if field w 28 4 = 0x2 then
    if field w 0 28 = 0 then .ovf else .refuse .mustBeZero
  else if field w 28 4 = 0x3 then
    if field w 6 22 = 0 then .tick (field w 0 6) else .refuse .mustBeZero
  else if field w 28 4 = 0x4 then
    if field w 12 16 = 0 then .write (field w 0 12) else .refuse .mustBeZero
  else if field w 28 4 = 0x5 then
    if field w 12 16 = 0 then .read (field w 0 12) else .refuse .mustBeZero
  else .refuse .reservedKind

/-- The WRITE rows of R78: the address of each register with a write rule (R143), and its operation. -/
def writeMap : List (Nat × (Word → Instr)) :=
  [(0x000, .wrPosX), (0x004, .wrCmdX), (0x010, .wrModeX), (0x040, .wrPosYl), (0x044, .wrCmdYl),
   (0x050, .wrModeYl), (0x080, .wrPosYr), (0x090, .wrModeYr), (0x108, .wrCtrl)]

/-- The RD rows of channel X (R78). -/
def readMapX : List (Nat × Instr) :=
  [(0x000, .rdPosX), (0x004, .rdCmdX), (0x008, .rdErrX), (0x00C, .rdEfferrX), (0x010, .rdModeX),
   (0x014, .rdStatusX), (0x018, .rdDriveX), (0x01C, .rdIntegX), (0x020, .rdSpeedX), (0x024, .rdPrevX),
   (0x028, .rdStrikeX), (0x02C, .rdEdge1X), (0x030, .rdEdge2X), (0x034, .rdPeriodX)]

/-- The RD rows of channel YL (R78). -/
def readMapYl : List (Nat × Instr) :=
  [(0x040, .rdPosYl), (0x044, .rdCmdYl), (0x048, .rdErrYl), (0x04C, .rdEfferrYl), (0x050, .rdModeYl),
   (0x054, .rdStatusYl), (0x058, .rdDriveYl), (0x05C, .rdIntegYl), (0x060, .rdSpeedYl), (0x064, .rdPrevYl),
   (0x068, .rdStrikeYl), (0x06C, .rdEdge1Yl), (0x070, .rdEdge2Yl), (0x074, .rdPeriodYl)]

/-- The RD rows of channel YR (R78). -/
def readMapYr : List (Nat × Instr) :=
  [(0x080, .rdPosYr), (0x084, .rdCmdYr), (0x088, .rdErrYr), (0x08C, .rdEfferrYr), (0x090, .rdModeYr),
   (0x094, .rdStatusYr), (0x098, .rdDriveYr), (0x09C, .rdIntegYr), (0x0A0, .rdSpeedYr), (0x0A4, .rdPrevYr),
   (0x0A8, .rdStrikeYr), (0x0AC, .rdEdge1Yr), (0x0B0, .rdEdge2Yr), (0x0B4, .rdPeriodYr)]

/-- The RD rows of the global registers (R78). -/
def readMapGlobal : List (Nat × Instr) :=
  [(0x100, .rdYstat), (0x104, .rdLrerr), (0x108, .rdCtrl), (0x10C, .rdOvfcnt), (0x110, .rdPhase)]

/-- All READ rows of R78. -/
def readMap : List (Nat × Instr) := readMapX ++ readMapYl ++ readMapYr ++ readMapGlobal

/-- A WRITE of `d` to `a`: the row of the map, or an unmapped access (R80). -/
def writeOperation (a : Addr) (d : Word) : Operation :=
  match writeMap.lookup a.toNat with
  | some row => .instr (row d)
  | none => .unmappedWrite a d

/-- A READ of `a`: the row of the map, or an unmapped access (R80). -/
def readOperation (a : Addr) : Operation :=
  match readMap.lookup a.toNat with
  | some i => .instr i
  | none => .unmappedRead a

/-- What the decoder makes of the words at the head of a stream. -/
inductive Decoded where
  /-- One operation, and the words after it. -/
  | operation (op : Operation) (rest : List Word)
  /-- The stream is empty: no operation. -/
  | nothing
  /-- The head spells no operation (R79). -/
  | refused (why : DecodeRefusal)
  deriving DecidableEq, Repr

/-- Reads one operation off a stream: one word, or two for a WRITE (R69). -/
def decode : List Word → Decoded
  | [] => .nothing
  | w :: rest =>
    match decodeWord w with
    | .edge m b cap => .operation (.instr (.edge m b cap)) rest
    | .ovf => .operation (.instr .ovf) rest
    | .tick sw => .operation (.instr (.tick sw)) rest
    | .read a => .operation (readOperation a) rest
    | .write a =>
      match rest with
      | d :: rest => .operation (writeOperation a d) rest
      | [] => .refused .missingData
    | .refuse why => .refused why

/-- Format E assembled from its fields (R71). -/
def edgeWord (m : BitVec 2) (b : Bool) (cap : Capture) : Word :=
  0x1#4 ++ cap ++ 0#8 ++ BitVec.ofBool b ++ 0#1 ++ m

/-- Format T assembled from its fields (R73). -/
def tickWord (sw : BitVec 6) : Word := 0x3#4 ++ 0#22 ++ sw

/-- Format W's stimulus word (R74). -/
def writeWord (a : Addr) : Word := 0x4#4 ++ 0#16 ++ a

/-- Format R (R75). -/
def readWord (a : Addr) : Word := 0x5#4 ++ 0#16 ++ a

/-- The words of an operation of the map, from R78's match column. -/
def encode : Instr → List Word
  | .edgeX b cap => [edgeWord 0 b cap]
  | .edgeYl b cap => [edgeWord 1 b cap]
  | .edgeYr b cap => [edgeWord 2 b cap]
  | .ovf => [0x20000000#32]
  | .tick sw => [tickWord sw]
  | .wrPosX d => [0x40000000#32, d]
  | .wrPosYl d => [0x40000040#32, d]
  | .wrPosYr d => [0x40000080#32, d]
  | .wrCmdX d => [0x40000004#32, d]
  | .wrCmdYl d => [0x40000044#32, d]
  | .wrModeX d => [0x40000010#32, d]
  | .wrModeYl d => [0x40000050#32, d]
  | .wrModeYr d => [0x40000090#32, d]
  | .wrCtrl d => [0x40000108#32, d]
  | .rdPosX => [0x50000000#32]
  | .rdPosYl => [0x50000040#32]
  | .rdPosYr => [0x50000080#32]
  | .rdCmdX => [0x50000004#32]
  | .rdCmdYl => [0x50000044#32]
  | .rdCmdYr => [0x50000084#32]
  | .rdErrX => [0x50000008#32]
  | .rdErrYl => [0x50000048#32]
  | .rdErrYr => [0x50000088#32]
  | .rdEfferrX => [0x5000000C#32]
  | .rdEfferrYl => [0x5000004C#32]
  | .rdEfferrYr => [0x5000008C#32]
  | .rdModeX => [0x50000010#32]
  | .rdModeYl => [0x50000050#32]
  | .rdModeYr => [0x50000090#32]
  | .rdStatusX => [0x50000014#32]
  | .rdStatusYl => [0x50000054#32]
  | .rdStatusYr => [0x50000094#32]
  | .rdDriveX => [0x50000018#32]
  | .rdDriveYl => [0x50000058#32]
  | .rdDriveYr => [0x50000098#32]
  | .rdIntegX => [0x5000001C#32]
  | .rdIntegYl => [0x5000005C#32]
  | .rdIntegYr => [0x5000009C#32]
  | .rdSpeedX => [0x50000020#32]
  | .rdSpeedYl => [0x50000060#32]
  | .rdSpeedYr => [0x500000A0#32]
  | .rdPrevX => [0x50000024#32]
  | .rdPrevYl => [0x50000064#32]
  | .rdPrevYr => [0x500000A4#32]
  | .rdStrikeX => [0x50000028#32]
  | .rdStrikeYl => [0x50000068#32]
  | .rdStrikeYr => [0x500000A8#32]
  | .rdEdge1X => [0x5000002C#32]
  | .rdEdge1Yl => [0x5000006C#32]
  | .rdEdge1Yr => [0x500000AC#32]
  | .rdEdge2X => [0x50000030#32]
  | .rdEdge2Yl => [0x50000070#32]
  | .rdEdge2Yr => [0x500000B0#32]
  | .rdPeriodX => [0x50000034#32]
  | .rdPeriodYl => [0x50000074#32]
  | .rdPeriodYr => [0x500000B4#32]
  | .rdYstat => [0x50000100#32]
  | .rdLrerr => [0x50000104#32]
  | .rdCtrl => [0x50000108#32]
  | .rdOvfcnt => [0x5000010C#32]
  | .rdPhase => [0x50000110#32]

/-- The words of any operation, the unmapped accesses of R80 among them. -/
def encodeOperation : Operation → List Word
  | .instr i => encode i
  | .unmappedRead a => [readWord a]
  | .unmappedWrite a d => [writeWord a, d]

/-- The instruction the decoder reads from an instruction whose bits are `w`, numbered as spec/opcode_table.json numbers them:
the first word is `w[31:0]`, a WRITE's data word `w[63:32]`; bits at or above `nbits` are 0. -/
def decodeTableWord (nbits w : Nat) : Option Instr :=
  match decode [BitVec.ofNat 32 (w % 2 ^ nbits), BitVec.ofNat 32 (w % 2 ^ nbits / 2 ^ 32)] with
  | .operation (.instr i) _ => some i
  | _ => none

/-- The words of the instruction `w` of `nbits` bits as a stream holds them: two for a WRITE, one for any other (R69). -/
def stimulusWords (nbits w : Nat) : List Word :=
  let w0 : Word := BitVec.ofNat 32 (w % 2 ^ nbits)
  if field w0 28 4 = 0x4 then [w0, BitVec.ofNat 32 (w % 2 ^ nbits / 2 ^ 32)] else [w0]

/-- `ch`, the base of channel m's register block: `m * 0x40` (R57). -/
def chanBase : Chan → Addr
  | .x => 0x000
  | .yl => 0x040
  | .yr => 0x080

/-- The offset of a register in a channel block (R57). -/
def regOffset : Reg → Addr
  | .pos => 0x00
  | .cmd => 0x04
  | .err => 0x08
  | .efferr => 0x0C
  | .mode => 0x10
  | .status => 0x14
  | .drive => 0x18
  | .integ => 0x1C
  | .speed => 0x20
  | .prev => 0x24
  | .strike => 0x28
  | .edge1 => 0x2C
  | .edge2 => 0x30
  | .period => 0x34

/-- The address of register `r` of channel m (R57). -/
def regAddr (m : Chan) (r : Reg) : Addr := chanBase m + regOffset r

/-- The address of a global register (R57). -/
def globalAddr : GReg → Addr
  | .ystat => 0x100
  | .lrerr => 0x104
  | .ctrl => 0x108
  | .ovfcnt => 0x10C
  | .phase => 0x110

/-- The code of channel m in an EDGE word (R71). -/
def chanCode : Chan → BitVec 2
  | .x => 0
  | .yl => 1
  | .yr => 2

/-- The stimulus words of an assembler line; a negative value is its two's-complement word (R81). -/
def assemble : AsmLine → List Word
  | .edge m b cap => [edgeWord (chanCode m) (b == 1) (BitVec.ofNat 16 cap)]
  | .ovf => [0x20000000#32]
  | .tick sw => [tickWord (BitVec.ofNat 6 sw)]
  | .wr m r v => [writeWord (regAddr m r), BitVec.ofInt 32 v]
  | .wrGlobal g v => [writeWord (globalAddr g), BitVec.ofInt 32 v]
  | .rd m r => [readWord (regAddr m r)]
  | .rdGlobal g => [readWord (globalAddr g)]

/-- A program: its lines' words in order. -/
def assembleAll (lines : List AsmLine) : List Word := lines.flatMap assemble

/-- `TICKS <n>`: n copies of TICK (R82). -/
def asmTicks (n : Nat) : List AsmLine := List.replicate n (.tick 0)

/-- `EDGES <ch>, <b>, <n>`: n copies of `EDGE <ch>, <b>` (R82). -/
def asmEdges (m : Chan) (b n : Nat) : List AsmLine := List.replicate n (.edge m b 0)

/-- `CLEAR`: `WR CTRL, 1` (R82). -/
def asmClear : AsmLine := .wrGlobal .ctrl 1

/-- `ENABLE <ch>`: `WR <ch>.MODE, 2` (R82). -/
def asmEnable (m : Chan) : AsmLine := .wr m .mode 2

/-- `MANUAL <ch>`: `WR <ch>.MODE, 1` (R82). -/
def asmManual (m : Chan) : AsmLine := .wr m .mode 1

/-- `DISABLE <ch>`: `WR <ch>.MODE, 0` (R82). -/
def asmDisable (m : Chan) : AsmLine := .wr m .mode 0

end Sys2Proof
end

