-- ==== Sys2Proof/WellFormed.lean ====
section
/-! DEFINITION. Well-formedness: the legal ranges of the configuration (spec/00_scope.md R9, R10), of an operation (an unmapped
access names an address with no rule, R143), and of an assembler line (R81). An `Instr` needs no check of its own: its operand
types are the fields' widths (R71 to R76), and a data word a register's rule refuses is answered with the error response, not
ill-formed (R80). -/

namespace Sys2Proof

/-- A signed 32-bit value. -/
def isI32 (v : Int) : Bool := decide (-2147483648 ≤ v) && decide (v ≤ 2147483647)

/-- A signed 16-bit value. -/
def isI16 (v : Int) : Bool := decide (-32768 ≤ v) && decide (v ≤ 32767)

/-- `lo..hi`. -/
def inRange (v lo hi : Nat) : Bool := decide (lo ≤ v) && decide (v ≤ hi)

/-- R9's ranges for the positions of a channel. -/
def ChannelConfig.positionsOk (k : ChannelConfig) : Bool :=
  isI32 k.homeOffset && isI32 k.homePos && isI32 k.limitPos

/-- R9's ranges for the soft limits and the deadband: `2*BOUNDARY <= LENGTH <= 2^31-1`, `DEADBAND <= 2^31-1`. -/
def ChannelConfig.limitsOk (k : ChannelConfig) : Bool :=
  decide (2 * k.boundary ≤ k.length) && decide (k.length ≤ 2147483647) && decide (k.deadband ≤ 2147483647)

/-- R9's ranges for the gains. -/
def ChannelConfig.gainsOk (k : ChannelConfig) : Bool :=
  decide (k.gainP ≤ 65535) && inRange k.gainPFactor 1 65535 && decide (k.gainI ≤ 65535) &&
    decide (k.integralLimit ≤ 2147483647)

/-- R9's ranges for the speed clamp, the slew rate and the duty map. -/
def ChannelConfig.driveOk (k : ChannelConfig) : Bool :=
  decide (k.maxSpeed ≤ 100) && inRange k.slewRate 1 100 && isI16 k.dutyFwdK && isI16 k.dutyRevK &&
    inRange k.dutyKDen 1 65535 && decide (k.dutyFwdOffset ≤ 100) && decide (k.dutyRevOffset ≤ 100) &&
    decide (k.dutyBrake ≤ 100)

/-- R9's ranges for the speed estimator and the overload detector. -/
def ChannelConfig.stallOk (k : ChannelConfig) : Bool :=
  inRange k.mmPerRev 1 65535 && inRange k.ticksPerRev 1 65535 && decide (k.speedFloor ≤ 4294967295) &&
    inRange k.strikeLimit 1 65535

/-- Every range of R9 for one channel. -/
def ChannelConfig.wf (k : ChannelConfig) : Bool :=
  k.positionsOk && k.limitsOk && k.gainsOk && k.driveOk && k.stallOk

/-- Configuration validity (R10): every range of R9, and `TICK_HZ mod SUBRATE_N = 0`. -/
def Config.wf (k : Config) : Bool :=
  inRange k.subrateN 1 1000 && tickHz % k.subrateN == 0 && inRange k.mismatchLimit 1 2147483648 && k.x.wf && k.yl.wf &&
    k.yr.wf

/-- An unmapped access is at an address the map gives no such rule (R143). -/
def Operation.wf : Operation → Bool
  | .instr _ => true
  | .unmappedRead a => (readMap.lookup a.toNat).isNone
  | .unmappedWrite a _ => (writeMap.lookup a.toNat).isNone

/-- A value a line can carry: a 32-bit word, written signed or unsigned (R81). -/
def asmValueOk (v : Int) : Bool := decide (-2147483648 ≤ v) && decide (v ≤ 4294967295)

/-- The operands R81 allows: `<b>` is 0 or 1, `cap` 16 bits, `sw` 6 bits, a value one word. -/
def AsmLine.wf : AsmLine → Bool
  | .edge _ b cap => decide (b ≤ 1) && decide (cap ≤ 65535)
  | .ovf => true
  | .tick sw => decide (sw ≤ 63)
  | .wr _ _ v => asmValueOk v
  | .wrGlobal _ v => asmValueOk v
  | .rd _ _ => true
  | .rdGlobal _ => true

end Sys2Proof
end

