-- ==== Sys2Proof/Machine/Operands.lean ====
section
/-! DEFINITION. The named arithmetic functions of spec/00_scope.md R13, the operand forms of R76, and the record accessors every
operation goes through. -/

namespace Sys2Proof.Machine

/-- `sat32(v)` (R13). -/
def sat32 (v : Int) : Int := min (max v (-2147483648)) 2147483647

/-- `satu32(v)` (R13). -/
def satu32 (v : Int) : Int := min (max v 0) 4294967295

/-- `clamp(v, lo, hi)` (R13). -/
def clamp (v lo hi : Int) : Int := min (max v lo) hi

/-- `tdiv(a, b)`: division truncated toward zero, `sign(a)*sign(b)*(abs(a) div abs(b))` (R13, R113). -/
def tdiv (a b : Int) : Int := a.sign * b.sign * ((a.natAbs / b.natAbs : Nat) : Int)

/-- `s32(w)`: a word read as two's complement (R13). -/
def s32 (w : Word) : Int := w.toInt

/-- `u32(v)`: the two's-complement word of an i32 value, and the u32 register that holds a value of that range (R13). -/
def u32 (v : Int) : Word := BitVec.ofInt 32 v

/-- The home switch's level of channel m in a TICK word: `sw[2m]` (R73). -/
def homeLevel (sw : BitVec 6) : Chan → Bool
  | .x => sw.getLsbD 0
  | .yl => sw.getLsbD 2
  | .yr => sw.getLsbD 4

/-- The limit switch's level of channel m in a TICK word: `sw[2m+1]` (R73). -/
def limitLevel (sw : BitVec 6) : Chan → Bool
  | .x => sw.getLsbD 1
  | .yl => sw.getLsbD 3
  | .yr => sw.getLsbD 5

/-- Byte k of a register word, bits `[8k+7:8k]`, at byte address A + k (R58). -/
def byteOfWord (w : Word) (k : Nat) : Byte := w.extractLsb' (8 * k) 8

/-- `s.f[m]` read (R14, R24). -/
def Block.chan (b : Block) : Chan → Channel
  | .x => b.x
  | .yl => b.yl
  | .yr => b.yr

/-- `s.f[m] <- v`: the whole record of channel m (R14, R24). -/
def Block.setChan (b : Block) (m : Chan) (c : Channel) : Block :=
  match m with
  | .x => { b with x := c }
  | .yl => { b with yl := c }
  | .yr => { b with yr := c }

/-- The machine built from a configuration, refused when it is invalid (R10, R190). -/
def build (k : Config) : Option State := if k.wf then some (State.resetWith k) else none

end Sys2Proof.Machine
end

