-- ==== Sys2Proof/Machine/Flags.lean ====
section
/-! DEFINITION. Enumeration codes (spec/00_scope.md R15), the derived outputs (spec/10_state.md R55; spec/41_quadrature_decoder.md
R93) and the words the registers read as (spec/47_host_interface.md R144, R150 to R167). -/

namespace Sys2Proof.Machine

/-- Brake = 0, Forward = 1, Reverse = 2 (R15). -/
def directionCode : Direction → BitVec 2
  | .brake => 0
  | .forward => 1
  | .reverse => 2

/-- Forward = 0, Reverse = 1 (R15). -/
def qdirCode : QDir → BitVec 1
  | .forward => 0
  | .reverse => 1

/-- Disabled = 0, Manual = 1, PositionControl = 2 (R15). -/
def modeCode : Mode → BitVec 2
  | .disabled => 0
  | .manual => 1
  | .positionControl => 2

/-- The mode a code stands for; 3 stands for none (R34, R147). -/
def modeOfCode (v : BitVec 2) : Option Mode :=
  if v = 0 then some .disabled else if v = 1 then some .manual else if v = 2 then some .positionControl else none

/-- None = 0, Overload = 1 (R15). -/
def errorCode : MotorError → BitVec 1
  | .none => 0
  | .overload => 1

/-- None = 0, Overload = 1, LrMismatch = 2 (R15). -/
def yerrCode : YError → BitVec 2
  | .none => 0
  | .overload => 1
  | .lrMismatch => 2

/-- `out_enable[m] = (mode[m] = PositionControl)` (R55). -/
def outEnable (c : Channel) : Bool := c.mode == .positionControl

/-- `hb_dir[m] = direction[m]` (R55). -/
def hbDir (c : Channel) : Direction := c.direction

/-- `hb_duty[m] = pwm_duty[m]` (R55). -/
def hbDuty (c : Channel) : BitVec 8 := c.pwmDuty

/-- `period[m]`, the time between the last two latched edges modulo 2^24 (R93). -/
def period (c : Channel) : BitVec 24 :=
  BitVec.ofInt 24 ((((c.edge2.ovf.toNat : Int) - c.edge1.ovf.toNat) % 256) * 65536 + c.edge2.cap.toNat - c.edge1.cap.toNat)

/-- STATUS: `[1:0]` direction, `[2]` qdir, `[3]` home_sw, `[4]` limit_sw, `[5]` error, `[6]` out_enable, `[9:8]` last_dir (R155). -/
def statusWord (c : Channel) : Word :=
  0#22 ++ directionCode c.lastDir ++ 0#1 ++ BitVec.ofBool (outEnable c) ++ errorCode c.error ++ BitVec.ofBool c.limitSw ++
    BitVec.ofBool c.homeSw ++ qdirCode c.qdir ++ directionCode c.direction

/-- DRIVE: `[7:0]` set_speed, `[15:8]` pwm_duty (R156). -/
def driveWord (c : Channel) : Word := 0#16 ++ c.pwmDuty ++ c.setSpeed

/-- EDGE1 and EDGE2: `[15:0]` cap, `[23:16]` ovf (R161). -/
def stampWord (e : EdgeStamp) : Word := 0#8 ++ e.ovf ++ e.cap

/-- YSTAT: `[1:0]` yerr, `[8]` clr_refused (R163). -/
def ystatWord (b : Block) : Word := 0#23 ++ BitVec.ofBool b.clrRefused ++ 0#6 ++ yerrCode b.yerr

/-- The word a READ of a channel register returns (R150 to R162). -/
def regWord (c : Channel) : Reg → Word
  | .pos => c.pos
  | .cmd => c.cmd
  | .err => c.err
  | .efferr => c.efferr
  | .mode => (modeCode c.mode).setWidth 32
  | .status => statusWord c
  | .drive => driveWord c
  | .integ => c.integ
  | .speed => c.speed
  | .prev => c.prev
  | .strike => c.strike.setWidth 32
  | .edge1 => stampWord c.edge1
  | .edge2 => stampWord c.edge2
  | .period => (period c).setWidth 32

/-- The word a READ of a global register returns; CTRL reads 0 (R163 to R167). -/
def globalWord (b : Block) : GReg → Word
  | .ystat => ystatWord b
  | .lrerr => b.lr
  | .ctrl => 0
  | .ovfcnt => b.ovfCnt.setWidth 32
  | .phase => b.tickPhase.setWidth 32

end Sys2Proof.Machine
end

