-- ==== Sys2Proof/Machine/Ops.lean ====
section
/-! DEFINITION. The shared operations: how an operation completes, the Brake outputs (spec/00_scope.md R18), and the block's
exceptions with their return: the bus error (spec/60_exceptions.md R169), the Overload latch (spec/45_overload_stall_detector.md
R129), the mismatch trip (spec/46_dual_motor_synchronizer.md R137) and CLEAR (spec/47_host_interface.md R149). -/

namespace Sys2Proof.Machine

/-- An operation ends: the block's new state and the response, if it has one. -/
def State.finish (s : State) (b : Block) (r : Option Response) : Result := .next { s with blk := b, resp := r }

/-- An EDGE, OVF or TICK ends; it has no response (R69, R174). -/
def State.finishQuiet (s : State) (b : Block) : Result := s.finish b none

/-- A READ ends in OKAY with its data word and changes no state (R62, R143). -/
def State.finishRead (s : State) (w : Word) : Result := s.finish s.blk (some ⟨.okay, some w⟩)

/-- A WRITE ends in OKAY, which carries no data (R143). -/
def State.finishWrite (s : State) (b : Block) : Result := s.finish b (some ⟨.okay, none⟩)

/-- BusError on a WRITE: the ERR response, with no state changed and nothing recorded (R169). -/
def busErrorWrite (s : State) : Result := s.finish s.blk (some ⟨.err, none⟩)

/-- BusError on a READ: the ERR response, with no state changed. "A model returns the data word 0" (R169, I25; log 4). -/
def busErrorRead (s : State) : Result := s.finish s.blk (some ⟨.err, some 0⟩)

/-- A READ of a channel register (R150 to R162). -/
def readReg (m : Chan) (r : Reg) (s : State) : Result := s.finishRead (regWord (s.blk.chan m) r)

/-- A READ of a global register (R163 to R167). -/
def readGlobal (g : GReg) (s : State) : Result := s.finishRead (globalWord s.blk g)

/-- Apply Brake outputs to a channel (R18). -/
def brakeOutputs (k : ChannelConfig) (c : Channel) : Channel :=
  { c with direction := .brake, setSpeed := 0, pwmDuty := BitVec.ofNat 8 k.dutyBrake }

/-- What the Overload latch writes in its own channel: the cause, the mode and the outputs (R129, R171, R177). -/
def latchChannel (k : ChannelConfig) (c : Channel) : Channel :=
  brakeOutputs k { c with error := .overload, mode := .disabled }

/-- The shared error after an Overload on channel m: a Y channel's is recorded if nothing is latched yet (R129, R47). -/
def yerrAfterOverload (m : Chan) (y : YError) : YError := if m ≠ .x ∧ y = .none then .overload else y

/-- `Latch(m)`: the entry of the Overload fault (R129). -/
def latchOverload (k : Config) (m : Chan) (b : Block) : Block :=
  { b.setChan m (latchChannel (k.chan m) (b.chan m)) with yerr := yerrAfterOverload m b.yerr }

/-- The entry of the LrMismatch fault: a new latch disables both Y modes, and in every case both channels brake; the integrals
stay (R137, R172). -/
def tripMismatch (k : Config) (b : Block) : Block :=
  if b.yerr = .none then
    { b with yerr := .lrMismatch,
             yl := brakeOutputs k.yl { b.yl with mode := .disabled },
             yr := brakeOutputs k.yr { b.yr with mode := .disabled } }
  else { b with yl := brakeOutputs k.yl b.yl, yr := brakeOutputs k.yr b.yr }

/-- `sat32(pos[1] - pos[2])`, the Y divergence (R136, R149). -/
def divergence (b : Block) : Int := sat32 (s32 b.yl.pos - s32 b.yr.pos)

/-- What an accepted CLEAR writes in each channel (R149). -/
def clearChannel (c : Channel) : Channel := { c with error := .none, strike := 0 }

/-- `Clear()`, the return from the fault latches: all or nothing, refused while an LrMismatch latch's divergence persists (R149,
R178). -/
def clearFaults (k : Config) (b : Block) : Block :=
  if b.yerr = .lrMismatch ∧ k.mismatchLimit ≤ (divergence b).natAbs then { b with clrRefused := true }
  else { b with x := clearChannel b.x, yl := clearChannel b.yl, yr := clearChannel b.yr, yerr := .none, clrRefused := false }

end Sys2Proof.Machine
end

