-- ==== Sys2Proof/Machine/HostRead.lean ====
section
/-! DEFINITION. Host READs (spec/47_host_interface.md R143, R150 to R167), and the register space as bytes
(spec/20_memory.md R56 to R58). -/

namespace Sys2Proof.Machine

/-- RD_POS.X (R150). -/
def execRdPosX (s : State) : Result := readReg .x .pos s

/-- RD_POS.YL (R150). -/
def execRdPosYl (s : State) : Result := readReg .yl .pos s

/-- RD_POS.YR (R150). -/
def execRdPosYr (s : State) : Result := readReg .yr .pos s

/-- RD_CMD.X (R151). -/
def execRdCmdX (s : State) : Result := readReg .x .cmd s

/-- RD_CMD.YL (R151). -/
def execRdCmdYl (s : State) : Result := readReg .yl .cmd s

/-- RD_CMD.YR (R151). -/
def execRdCmdYr (s : State) : Result := readReg .yr .cmd s

/-- RD_ERR.X (R152). -/
def execRdErrX (s : State) : Result := readReg .x .err s

/-- RD_ERR.YL (R152). -/
def execRdErrYl (s : State) : Result := readReg .yl .err s

/-- RD_ERR.YR (R152). -/
def execRdErrYr (s : State) : Result := readReg .yr .err s

/-- RD_EFFERR.X (R153). -/
def execRdEfferrX (s : State) : Result := readReg .x .efferr s

/-- RD_EFFERR.YL (R153). -/
def execRdEfferrYl (s : State) : Result := readReg .yl .efferr s

/-- RD_EFFERR.YR (R153). -/
def execRdEfferrYr (s : State) : Result := readReg .yr .efferr s

/-- RD_MODE.X (R154). -/
def execRdModeX (s : State) : Result := readReg .x .mode s

/-- RD_MODE.YL (R154). -/
def execRdModeYl (s : State) : Result := readReg .yl .mode s

/-- RD_MODE.YR (R154). -/
def execRdModeYr (s : State) : Result := readReg .yr .mode s

/-- RD_STATUS.X (R155). -/
def execRdStatusX (s : State) : Result := readReg .x .status s

/-- RD_STATUS.YL (R155). -/
def execRdStatusYl (s : State) : Result := readReg .yl .status s

/-- RD_STATUS.YR (R155). -/
def execRdStatusYr (s : State) : Result := readReg .yr .status s

/-- RD_DRIVE.X (R156). -/
def execRdDriveX (s : State) : Result := readReg .x .drive s

/-- RD_DRIVE.YL (R156). -/
def execRdDriveYl (s : State) : Result := readReg .yl .drive s

/-- RD_DRIVE.YR (R156). -/
def execRdDriveYr (s : State) : Result := readReg .yr .drive s

/-- RD_INTEG.X (R157). -/
def execRdIntegX (s : State) : Result := readReg .x .integ s

/-- RD_INTEG.YL (R157). -/
def execRdIntegYl (s : State) : Result := readReg .yl .integ s

/-- RD_INTEG.YR (R157). -/
def execRdIntegYr (s : State) : Result := readReg .yr .integ s

/-- RD_SPEED.X (R158). -/
def execRdSpeedX (s : State) : Result := readReg .x .speed s

/-- RD_SPEED.YL (R158). -/
def execRdSpeedYl (s : State) : Result := readReg .yl .speed s

/-- RD_SPEED.YR (R158). -/
def execRdSpeedYr (s : State) : Result := readReg .yr .speed s

/-- RD_PREV.X (R159). -/
def execRdPrevX (s : State) : Result := readReg .x .prev s

/-- RD_PREV.YL (R159). -/
def execRdPrevYl (s : State) : Result := readReg .yl .prev s

/-- RD_PREV.YR (R159). -/
def execRdPrevYr (s : State) : Result := readReg .yr .prev s

/-- RD_STRIKE.X (R160). -/
def execRdStrikeX (s : State) : Result := readReg .x .strike s

/-- RD_STRIKE.YL (R160). -/
def execRdStrikeYl (s : State) : Result := readReg .yl .strike s

/-- RD_STRIKE.YR (R160). -/
def execRdStrikeYr (s : State) : Result := readReg .yr .strike s

/-- RD_EDGE1.X (R161). -/
def execRdEdge1X (s : State) : Result := readReg .x .edge1 s

/-- RD_EDGE1.YL (R161). -/
def execRdEdge1Yl (s : State) : Result := readReg .yl .edge1 s

/-- RD_EDGE1.YR (R161). -/
def execRdEdge1Yr (s : State) : Result := readReg .yr .edge1 s

/-- RD_EDGE2.X (R161). -/
def execRdEdge2X (s : State) : Result := readReg .x .edge2 s

/-- RD_EDGE2.YL (R161). -/
def execRdEdge2Yl (s : State) : Result := readReg .yl .edge2 s

/-- RD_EDGE2.YR (R161). -/
def execRdEdge2Yr (s : State) : Result := readReg .yr .edge2 s

/-- RD_PERIOD.X (R162). -/
def execRdPeriodX (s : State) : Result := readReg .x .period s

/-- RD_PERIOD.YL (R162). -/
def execRdPeriodYl (s : State) : Result := readReg .yl .period s

/-- RD_PERIOD.YR (R162). -/
def execRdPeriodYr (s : State) : Result := readReg .yr .period s

/-- RD_YSTAT (R163). -/
def execRdYstat (s : State) : Result := readGlobal .ystat s

/-- RD_LRERR (R164). -/
def execRdLrerr (s : State) : Result := readGlobal .lrerr s

/-- RD_CTRL (R165). -/
def execRdCtrl (s : State) : Result := readGlobal .ctrl s

/-- RD_OVFCNT (R166). -/
def execRdOvfcnt (s : State) : Result := readGlobal .ovfcnt s

/-- RD_PHASE (R167). -/
def execRdPhase (s : State) : Result := readGlobal .phase s

/-- A READ of an address with no read rule: reserved or misaligned (R80, R143, R170). -/
def execUnmappedRead (_addr : Addr) (s : State) : Result := busErrorRead s

/-- The registers of a channel block in address order (R57). -/
def regList : List Reg :=
  [.pos, .cmd, .err, .efferr, .mode, .status, .drive, .integ, .speed, .prev, .strike, .edge1, .edge2, .period]

/-- The global registers in address order (R57). -/
def gregList : List GReg := [.ystat, .lrerr, .ctrl, .ovfcnt, .phase]

/-- The words of channel m's register block at their addresses (R57). -/
def chanWords (b : Block) (m : Chan) : List (Addr × Word) := regList.map fun r => (regAddr m r, regWord (b.chan m) r)

/-- Every readable word of the register space at its address (R57, R143). -/
def busWords (b : Block) : List (Addr × Word) :=
  chanWords b .x ++ chanWords b .yl ++ chanWords b .yr ++ gregList.map fun g => (globalAddr g, globalWord b g)

/-- The word at an address of the register space; none where a READ gets the error response (R143). -/
def busWord (b : Block) (a : Addr) : Option Word := (busWords b).lookup a

/-- The byte at a byte address of the register space, little-endian (R58). -/
def busByte (b : Block) (a : Addr) : Option Byte :=
  (busWord b (BitVec.ofNat 12 (a.toNat / 4 * 4))).map fun w => byteOfWord w (a.toNat % 4)

end Sys2Proof.Machine
end

