-- ==== Sys2Proof/Machine/HostWrite.lean ====
section
/-! DEFINITION. Host WRITEs (spec/47_host_interface.md R143 to R149). -/

namespace Sys2Proof.Machine

/-- WR_POS on channel m: `pos[m]` only (R145). -/
def writePos (m : Chan) (d : Word) (s : State) : Result :=
  s.finishWrite (s.blk.setChan m { s.blk.chan m with pos := u32 (s32 d) })

/-- WR_CMD on channel m, X or YL; not clamped here (R146). -/
def writeCmd (m : Chan) (d : Word) (s : State) : Result :=
  s.finishWrite (s.blk.setChan m { s.blk.chan m with cmd := d })

/-- A latch that keeps channel m from leaving Disabled: its own Overload, or LrMismatch on a Y channel (R147). -/
def modeLocked (m : Chan) (b : Block) : Bool :=
  decide ((b.chan m).error = .overload) || (decide (m ≠ .x) && decide (b.yerr = .lrMismatch))

/-- WR_MODE on channel m: BusError for a reserved value or a locked channel (R147). -/
def writeMode (m : Chan) (d : Word) (s : State) : Result :=
  if field d 2 30 ≠ 0 then busErrorWrite s
  else
    match modeOfCode (field d 0 2) with
    | none => busErrorWrite s
    | some v =>
      if v ≠ .disabled ∧ modeLocked m s.blk = true then busErrorWrite s
      else s.finishWrite (s.blk.setChan m { s.blk.chan m with mode := v })

/-- WR_CTRL: BusError for a nonzero reserved bit; bit 0 runs CLEAR (R148). -/
def writeCtrl (d : Word) (s : State) : Result :=
  if field d 1 31 ≠ 0 then busErrorWrite s
  else if d.getLsbD 0 then s.finishWrite (clearFaults s.cfg s.blk)
  else s.finishWrite s.blk

/-- WR_POS.X (R145). -/
def execWrPosX (d : Word) (s : State) : Result := writePos .x d s

/-- WR_POS.YL (R145). -/
def execWrPosYl (d : Word) (s : State) : Result := writePos .yl d s

/-- WR_POS.YR (R145). -/
def execWrPosYr (d : Word) (s : State) : Result := writePos .yr d s

/-- WR_CMD.X (R146). -/
def execWrCmdX (d : Word) (s : State) : Result := writeCmd .x d s

/-- WR_CMD.YL (R146). -/
def execWrCmdYl (d : Word) (s : State) : Result := writeCmd .yl d s

/-- WR_MODE.X (R147). -/
def execWrModeX (d : Word) (s : State) : Result := writeMode .x d s

/-- WR_MODE.YL (R147). -/
def execWrModeYl (d : Word) (s : State) : Result := writeMode .yl d s

/-- WR_MODE.YR (R147). -/
def execWrModeYr (d : Word) (s : State) : Result := writeMode .yr d s

/-- WR_CTRL (R148). -/
def execWrCtrl (d : Word) (s : State) : Result := writeCtrl d s

/-- A WRITE to an address with no write rule: reserved, misaligned, read-only, or CMD of channel YR (R80, R143, R170). -/
def execUnmappedWrite (_addr : Addr) (_d : Word) (s : State) : Result := busErrorWrite s

end Sys2Proof.Machine
end

