-- ==== Sys2Proof/Machine/Quadrature.lean ====
section
/-! DEFINITION. The quadrature decoder, EDGE and OVF (spec/41_quadrature_decoder.md R89 to R97). -/

namespace Sys2Proof.Machine

/-- The edge is Forward: phase B's level against the channel's wiring polarity (R90). -/
def edgeForward (k : ChannelConfig) (b : Bool) : Bool := b == k.qdBHighFwd

/-- One count in the edge's direction, saturating at the i32 range (R89, R91). -/
def countEdge (k : ChannelConfig) (b : Bool) (c : Channel) : Channel :=
  if edgeForward k b then { c with qdir := .forward, pos := u32 (min (s32 c.pos + 1) 2147483647) }
  else { c with qdir := .reverse, pos := u32 (max (s32 c.pos - 1) (-2147483648)) }

/-- The timestamp buffer's rotation, on a channel that has one (R92). -/
def stampEdge (k : ChannelConfig) (cap : Capture) (ovf : BitVec 8) (c : Channel) : Channel :=
  if k.tsEnable then { c with edge1 := c.edge2, edge2 := ⟨cap, ovf⟩ } else c

/-- `EDGE(m, b, cap)` (R89). -/
def edge (k : Config) (m : Chan) (level : Bool) (cap : Capture) (b : Block) : Block :=
  b.setChan m (stampEdge (k.chan m) cap b.ovfCnt (countEdge (k.chan m) level (b.chan m)))

/-- An EDGE operation on channel m (R89, R94). -/
def execEdge (m : Chan) (level : Bool) (cap : Capture) (s : State) : Result :=
  s.finishQuiet (edge s.cfg m level cap s.blk)

/-- EDGE.X (R89). -/
def execEdgeX (level : Bool) (cap : Capture) (s : State) : Result := execEdge .x level cap s

/-- EDGE.YL (R89). -/
def execEdgeYl (level : Bool) (cap : Capture) (s : State) : Result := execEdge .yl level cap s

/-- EDGE.YR (R89). -/
def execEdgeYr (level : Bool) (cap : Capture) (s : State) : Result := execEdge .yr level cap s

/-- `OVF()`: the overflow counter modulo 256 (R97). -/
def overflow (b : Block) : Block := { b with ovfCnt := BitVec.ofNat 8 ((b.ovfCnt.toNat + 1) % 256) }

/-- OVF (R97). -/
def execOvf (s : State) : Result := s.finishQuiet (overflow s.blk)

end Sys2Proof.Machine
end

