-- ==== Sys2Proof/Machine/Estimator.lean ====
section
/-! DEFINITION. The encoder speed estimator (spec/42_speed_estimator.md R98 to R102), a step of a sub-rate TICK. -/

namespace Sys2Proof.Machine

/-- The speed in mm/s of a motion of `d` ticks in one sub-rate period: exact products, one floor division, saturated to u32
(R98, R99). -/
def speedOf (subrateN : Nat) (k : ChannelConfig) (d : Nat) : Int :=
  satu32 ((d * (tickHz / subrateN) * k.mmPerRev / k.ticksPerRev : Nat) : Int)

/-- `SpeedEstimate(m)` on one channel (R98). -/
def estimate (subrateN : Nat) (k : ChannelConfig) (c : Channel) : Channel :=
  { c with speed := u32 (speedOf subrateN k (s32 c.pos - s32 c.prev).natAbs), prev := c.pos }

/-- The estimator stage of a sub-rate tick, channels 0, 1, 2 (R86, R98). -/
def estimateAll (k : Config) (b : Block) : Block :=
  { b with x := estimate k.subrateN k.x b.x, yl := estimate k.subrateN k.yl b.yl, yr := estimate k.subrateN k.yr b.yr }

end Sys2Proof.Machine
end

