-- ==== Sys2Proof/Machine/Overload.lean ====
section
/-! DEFINITION. The overload/stall detector (spec/45_overload_stall_detector.md R125 to R133), a step of a sub-rate TICK. -/

namespace Sys2Proof.Machine

/-- The strike condition on a channel whose direction is unchanged: driving, at full speed, below the floor (R127). -/
def stalled (k : ChannelConfig) (c : Channel) : Bool :=
  decide (c.direction ≠ .brake) && decide (c.setSpeed.toNat = k.maxSpeed) && decide (c.speed.toNat < k.speedFloor)

/-- One more strike, saturating at 65535 (R127). -/
def addStrike (c : Channel) : Channel := { c with strike := BitVec.ofNat 16 (min (c.strike.toNat + 1) 65535) }

/-- The evaluation short of the latch: a direction change or a non-stalled evaluation zeroes the count, a stalled one adds to it
(R126, R127, R128). -/
def evaluate (k : ChannelConfig) (c : Channel) : Channel :=
  if c.direction ≠ c.lastDir then { c with strike := 0, lastDir := c.direction }
  else if stalled k c then addStrike c
  else { c with strike := 0 }

/-- The evaluation ends in the latch: a strike was added and it reaches the limit (R127, R129). -/
def latches (k : ChannelConfig) (c : Channel) : Bool :=
  decide (c.error = .none) && decide (c.direction = c.lastDir) && stalled k c &&
    decide (k.strikeLimit ≤ (addStrike c).strike.toNat)

/-- `OverloadCheck(m)` (R125); a latched channel is left alone (R130). DEDUCED (log 10): the check reads the outputs and no mode,
as R125's pseudocode does. R133 says that a Manual channel never latches and that a Disabled one always resets its count; the
model has that from the first TICK after the WR_MODE on, whose gate brakes the channel, while a sub-rate TICK right after a WR_MODE
to Disabled or Manual still finds the drive outputs R204 keeps, and can count a strike or latch. -/
def overloadCheck (k : Config) (m : Chan) (b : Block) : Block :=
  if (b.chan m).error = .overload then b
  else
    let b' := b.setChan m (evaluate (k.chan m) (b.chan m))
    if latches (k.chan m) (b.chan m) then latchOverload k m b' else b'

/-- The detector stage of a sub-rate tick, channels 0, 1, 2 in turn (R86). -/
def overloadAll (k : Config) (b : Block) : Block :=
  overloadCheck k .yr (overloadCheck k .yl (overloadCheck k .x b))

end Sys2Proof.Machine
end

