-- ==== Sys2Proof/Machine/SlewLimiter.lean ====
section
/-! DEFINITION. `Output`: brake interlock, slew limit and duty map, steps 10 to 12 (spec/44_slew_rate_limiter.md R117 to R124). -/

namespace Sys2Proof.Machine

/-- The affine speed-to-duty map `clamp(offset + tdiv(K * v, DEN), 0, 100)` (R120). -/
def dutyMap (offset : Nat) (slope : Int) (den : Nat) (v : Nat) : Int :=
  clamp ((offset : Int) + tdiv (slope * v) den) 0 100

/-- `Duty(m, dir, v)`; `Output` asks for Forward and Reverse only, and Brake's duty is `DUTY_BRAKE[m]` (R18, R120). -/
def duty (k : ChannelConfig) : Direction → Nat → Int
  | .forward, v => dutyMap k.dutyFwdOffset k.dutyFwdK k.dutyKDen v
  | .reverse, v => dutyMap k.dutyRevOffset k.dutyRevK k.dutyKDen v
  | .brake, _ => k.dutyBrake

/-- The previous direction and the wanted one are opposite drives (R118 b). -/
def opposes : Direction → Direction → Bool
  | .forward, .reverse => true
  | .reverse, .forward => true
  | _, _ => false

/-- The applied speed: at most `SLEW_RATE[m]` above the previous one (R119). -/
def slewedSpeed (k : ChannelConfig) (target : Nat) (c : Channel) : Nat := min target (c.setSpeed.toNat + k.slewRate)

/-- The output commit (R121). -/
def commitOutput (k : ChannelConfig) (want : Direction) (spd : Nat) (c : Channel) : Channel :=
  { c with direction := want, setSpeed := BitVec.ofNat 8 spd, pwmDuty := BitVec.ofInt 8 (duty k want spd) }

/-- `Output(m, want, target)` (R117). -/
def output (k : ChannelConfig) (want : Direction) (target : Nat) (c : Channel) : Channel :=
  if want = .brake then brakeOutputs k c
  else if opposes c.direction want then brakeOutputs k c
  else commitOutput k want (slewedSpeed k target c) c

end Sys2Proof.Machine
end

