-- ==== Sys2Proof/Machine/Controller.lean ====
section
/-! DEFINITION. The position controller, steps 1 to 9 (spec/43_pid_position_controller.md R103 to R116). -/

namespace Sys2Proof.Machine

/-- Step 1's exit: Brake outputs and a zero integral (R104). -/
def gateExit (k : ChannelConfig) (c : Channel) : Channel := { brakeOutputs k c with integ := 0 }

/-- Step 2: the soft-limit clamp, written back (R105). -/
def clampCommand (k : ChannelConfig) (c : Channel) : Channel :=
  { c with cmd := u32 (clamp c.cmd.toNat k.boundary ((k.length : Int) - k.boundary)) }

/-- Step 3: the switch override; the home switch wins (R106). -/
def switchOverride (k : ChannelConfig) (c : Channel) : Channel :=
  if c.homeSw then { c with pos := u32 k.homePos }
  else if c.limitSw then { c with pos := u32 k.limitPos }
  else c

/-- The channel's own error, `sat32(cmd - pos)` (R107). -/
def ownError (c : Channel) : Int := sat32 ((c.cmd.toNat : Int) - s32 c.pos)

/-- The effective error: the own error, capped by the divergence where one is given (R107, R139). -/
def effectiveError (cap : Option Int) (own : Int) : Int :=
  match cap with
  | none => own
  | some lr => min own lr

/-- Step 4: the own and the effective error are recorded (R107). -/
def recordError (cap : Option Int) (c : Channel) : Channel :=
  { c with err := u32 (ownError c), efferr := u32 (effectiveError cap (ownError c)) }

/-- Step 6: the integral after an error `e` (R109). -/
def nextIntegral (k : ChannelConfig) (integ e : Int) : Int :=
  if k.gainI = 0 then 0 else clamp (integ + tdiv e k.gainI) (-(k.integralLimit : Int)) k.integralLimit

/-- Step 7: the proportional term, product first (R110). -/
def proportional (k : ChannelConfig) (e : Int) : Int := tdiv (e * k.gainP) k.gainPFactor

/-- Step 9: the magnitude, clamped to `MAX_SPEED[m]` (R112). -/
def targetSpeed (k : ChannelConfig) (ec : Int) : Nat := min ec.natAbs k.maxSpeed

/-- Step 9: the wanted direction (R112). -/
def wantedDirection (ec : Int) (target : Nat) : Direction :=
  if target = 0 then .brake else if 0 < ec then .forward else .reverse

/-- Steps 5 to 12 on the effective error `e` (R108 to R112, R117). -/
def act (k : ChannelConfig) (e : Int) (c : Channel) : Channel :=
  if e.natAbs ≤ k.deadband then brakeOutputs k { c with integ := 0 }
  else
    let i := nextIntegral k (s32 c.integ) e
    let ec := i + proportional k e
    let target := targetSpeed k ec
    output k (wantedDirection ec target) target { c with integ := u32 i }

/-- Steps 2 to 4: the channel as step 5 finds it (R105 to R107). -/
def prepare (k : ChannelConfig) (cap : Option Int) (c : Channel) : Channel :=
  recordError cap (switchOverride k (clampCommand k c))

/-- `Control(m, cap)` (R103). -/
def control (k : ChannelConfig) (cap : Option Int) (c : Channel) : Channel :=
  if c.mode ≠ .positionControl then gateExit k c
  else act k (effectiveError cap (ownError (switchOverride k (clampCommand k c)))) (prepare k cap c)

end Sys2Proof.Machine
end

