-- ==== Sys2Proof/Machine/Synchronizer.lean ====
section
/-! DEFINITION. The dual-motor synchronizer of the Y axis (spec/46_dual_motor_synchronizer.md R134 to R142). -/

namespace Sys2Proof.Machine

/-- Steps 1 and 2: the slave's command is the master's, and the divergence is taken (R135, R136). -/
def trackMaster (b : Block) : Block :=
  { b with yr := { b.yr with cmd := b.yl.cmd }, lr := u32 (divergence b) }

/-- Steps 4 and 5: the master against its own error, the slave capped by the divergence (R138, R139). -/
def controlPair (k : Config) (b : Block) : Block :=
  { b with yl := control k.yl none b.yl, yr := control k.yr (some (s32 b.lr)) b.yr }

/-- `Synchronize()` (R134). -/
def synchronize (k : Config) (b : Block) : Block :=
  let t := trackMaster b
  if k.mismatchLimit ≤ (s32 t.lr).natAbs then tripMismatch k t else controlPair k t

end Sys2Proof.Machine
end

