-- ==== Sys2Proof/Machine/Tick.lean ====
section
/-! DEFINITION. The tick sequencer (spec/40_tick_sequencer.md R83 to R88). -/

namespace Sys2Proof.Machine

/-- The switch levels of one channel are sampled (R84). -/
def sampleChannel (sw : BitVec 6) (m : Chan) (c : Channel) : Channel :=
  { c with homeSw := homeLevel sw m, limitSw := limitLevel sw m }

/-- Switch sampling on every channel (R84). -/
def sampleSwitches (sw : BitVec 6) (b : Block) : Block :=
  { b with x := sampleChannel sw .x b.x, yl := sampleChannel sw .yl b.yl, yr := sampleChannel sw .yr b.yr }

/-- The tick is a sub-rate tick: the phase reaches `SUBRATE_N` (R85). -/
def subrateTick (k : Config) (b : Block) : Bool := b.tickPhase.toNat + 1 == k.subrateN

/-- The phase advances, and returns to 0 on a sub-rate tick (R85). -/
def advancePhase (k : Config) (b : Block) : Block :=
  { b with tickPhase := if subrateTick k b then 0 else BitVec.ofNat 10 (b.tickPhase.toNat + 1) }

/-- The stages of a sub-rate tick: the detector, then the estimator (R86). -/
def subrateStages (k : Config) (b : Block) : Block := estimateAll k (overloadAll k b)

/-- The tick up to the controllers (R83, R84, R85). -/
def beforeControl (k : Config) (sw : BitVec 6) (b : Block) : Block :=
  let sampled := sampleSwitches sw b
  let advanced := advancePhase k sampled
  if subrateTick k sampled then subrateStages k advanced else advanced

/-- The X controller, which no divergence caps (R83). -/
def controlX (k : Config) (b : Block) : Block := { b with x := control k.x none b.x }

/-- `TICK(sw)` (R83). The status-send stage writes no block state (R87). -/
def tick (k : Config) (sw : BitVec 6) (b : Block) : Block := synchronize k (controlX k (beforeControl k sw b))

/-- TICK (R83). -/
def execTick (sw : BitVec 6) (s : State) : Result := s.finishQuiet (tick s.cfg sw s.blk)

end Sys2Proof.Machine
end

