-- ==== Sys2Proof/Machine/Dispatch.lean ====
section
/-! DEFINITION. One arm per operation of the opcode map (spec/30_encoding.md R78). -/

namespace Sys2Proof.Machine

def exec (i : Instr) (s : State) : Host.Outcome State Fault Refusal :=
  match i with
  | .edgeX level cap => Sys2Proof.Machine.execEdgeX level cap s
  | .edgeYl level cap => Sys2Proof.Machine.execEdgeYl level cap s
  | .edgeYr level cap => Sys2Proof.Machine.execEdgeYr level cap s
  | .ovf => Sys2Proof.Machine.execOvf s
  | .tick sw => Sys2Proof.Machine.execTick sw s
  | .wrPosX d => Sys2Proof.Machine.execWrPosX d s
  | .wrPosYl d => Sys2Proof.Machine.execWrPosYl d s
  | .wrPosYr d => Sys2Proof.Machine.execWrPosYr d s
  | .wrCmdX d => Sys2Proof.Machine.execWrCmdX d s
  | .wrCmdYl d => Sys2Proof.Machine.execWrCmdYl d s
  | .wrModeX d => Sys2Proof.Machine.execWrModeX d s
  | .wrModeYl d => Sys2Proof.Machine.execWrModeYl d s
  | .wrModeYr d => Sys2Proof.Machine.execWrModeYr d s
  | .wrCtrl d => Sys2Proof.Machine.execWrCtrl d s
  | .rdPosX => Sys2Proof.Machine.execRdPosX s
  | .rdPosYl => Sys2Proof.Machine.execRdPosYl s
  | .rdPosYr => Sys2Proof.Machine.execRdPosYr s
  | .rdCmdX => Sys2Proof.Machine.execRdCmdX s
  | .rdCmdYl => Sys2Proof.Machine.execRdCmdYl s
  | .rdCmdYr => Sys2Proof.Machine.execRdCmdYr s
  | .rdErrX => Sys2Proof.Machine.execRdErrX s
  | .rdErrYl => Sys2Proof.Machine.execRdErrYl s
  | .rdErrYr => Sys2Proof.Machine.execRdErrYr s
  | .rdEfferrX => Sys2Proof.Machine.execRdEfferrX s
  | .rdEfferrYl => Sys2Proof.Machine.execRdEfferrYl s
  | .rdEfferrYr => Sys2Proof.Machine.execRdEfferrYr s
  | .rdModeX => Sys2Proof.Machine.execRdModeX s
  | .rdModeYl => Sys2Proof.Machine.execRdModeYl s
  | .rdModeYr => Sys2Proof.Machine.execRdModeYr s
  | .rdStatusX => Sys2Proof.Machine.execRdStatusX s
  | .rdStatusYl => Sys2Proof.Machine.execRdStatusYl s
  | .rdStatusYr => Sys2Proof.Machine.execRdStatusYr s
  | .rdDriveX => Sys2Proof.Machine.execRdDriveX s
  | .rdDriveYl => Sys2Proof.Machine.execRdDriveYl s
  | .rdDriveYr => Sys2Proof.Machine.execRdDriveYr s
  | .rdIntegX => Sys2Proof.Machine.execRdIntegX s
  | .rdIntegYl => Sys2Proof.Machine.execRdIntegYl s
  | .rdIntegYr => Sys2Proof.Machine.execRdIntegYr s
  | .rdSpeedX => Sys2Proof.Machine.execRdSpeedX s
  | .rdSpeedYl => Sys2Proof.Machine.execRdSpeedYl s
  | .rdSpeedYr => Sys2Proof.Machine.execRdSpeedYr s
  | .rdPrevX => Sys2Proof.Machine.execRdPrevX s
  | .rdPrevYl => Sys2Proof.Machine.execRdPrevYl s
  | .rdPrevYr => Sys2Proof.Machine.execRdPrevYr s
  | .rdStrikeX => Sys2Proof.Machine.execRdStrikeX s
  | .rdStrikeYl => Sys2Proof.Machine.execRdStrikeYl s
  | .rdStrikeYr => Sys2Proof.Machine.execRdStrikeYr s
  | .rdEdge1X => Sys2Proof.Machine.execRdEdge1X s
  | .rdEdge1Yl => Sys2Proof.Machine.execRdEdge1Yl s
  | .rdEdge1Yr => Sys2Proof.Machine.execRdEdge1Yr s
  | .rdEdge2X => Sys2Proof.Machine.execRdEdge2X s
  | .rdEdge2Yl => Sys2Proof.Machine.execRdEdge2Yl s
  | .rdEdge2Yr => Sys2Proof.Machine.execRdEdge2Yr s
  | .rdPeriodX => Sys2Proof.Machine.execRdPeriodX s
  | .rdPeriodYl => Sys2Proof.Machine.execRdPeriodYl s
  | .rdPeriodYr => Sys2Proof.Machine.execRdPeriodYr s
  | .rdYstat => Sys2Proof.Machine.execRdYstat s
  | .rdLrerr => Sys2Proof.Machine.execRdLrerr s
  | .rdCtrl => Sys2Proof.Machine.execRdCtrl s
  | .rdOvfcnt => Sys2Proof.Machine.execRdOvfcnt s
  | .rdPhase => Sys2Proof.Machine.execRdPhase s

end Sys2Proof.Machine
end

