-- ==== Sys2Proof/Machine/Fetch.lean ====
section
/-! DEFINITION. Taking the next operation off the stimulus stream (spec/30_encoding.md R69, R77; spec/20_memory.md R63), and
running it. Step.lean only calls what stands here. -/

namespace Sys2Proof.Machine

/-- The model's refusal for a word that spells no operation (R79). -/
def refusalOf : DecodeRefusal → Refusal
  | .reservedKind => .reservedKind
  | .mustBeZero => .mustBeZero
  | .channelThree => .channelThree
  | .missingData => .missingData

/-- Runs one operation: a row of the map, or an access with the error response (R77, R80). -/
def runOperation (op : Operation) (s : State) : Result :=
  match op with
  | .instr i => exec i s
  | .unmappedRead a => execUnmappedRead a s
  | .unmappedWrite a d => execUnmappedWrite a d s

/-- Consumes one operation of the stream and runs it. With no operation delivered the block keeps its state (R188; log 2). -/
def fetchAndRun (s : State) : Result :=
  match decode s.stimulus with
  | .operation op rest => runOperation op { s with stimulus := rest }
  | .nothing => .next s
  | .refused why => .refused (refusalOf why)

/-- One step: a machine with an invalid configuration does not run (R10). -/
def stepOnce (s : State) : Result :=
  match s.cfg.wf with
  | true => fetchAndRun s
  | false => .refused .invalidConfiguration

/-- The words delivered ahead of everything else in the stream. -/
def deliver (s : State) (ws : List Word) : State := { s with stimulus := ws ++ s.stimulus }

end Sys2Proof.Machine
end

