-- ==== Sys2Proof/Machine/Step.lean ====
section
/-! DEFINITION. The step, and where it finds its next operation. -/

namespace Sys2Proof.Machine

/-- One step of the machine: one operation of the stimulus stream (R61, R63). -/
def step (s : State) : Host.Outcome State Fault Refusal := stepOnce s

/-- `s` with the words of the instruction `w` at the head of its stream, so that the next step runs it. -/
def State.withFetchWord (s : State) (nbits w : Nat) : State := deliver s (stimulusWords nbits w)

end Sys2Proof.Machine
end

