-- ==== Sys2Proof/Safety.lean ====
section
/-! DEFINITION. What a safe state and a run are, in the terms the statements use: the invariants spec/10_state.md section 3 and
the rules of spec/60_exceptions.md give. -/

namespace Sys2Proof.Machine

/-- R43: Brake exactly when the applied speed is 0, and the braking duty in Brake. -/
abbrev Channel.DriveOk (k : ChannelConfig) (c : Channel) : Prop :=
  (c.direction = .brake ↔ c.setSpeed = 0) ∧ (c.direction = .brake → c.pwmDuty = BitVec.ofNat 8 k.dutyBrake)

/-- R45: the integral stays within its limit. -/
abbrev Channel.IntegralOk (k : ChannelConfig) (c : Channel) : Prop := (s32 c.integ).natAbs ≤ k.integralLimit

/-- R32, R33, R112: the applied speed within `MAX_SPEED`, the duty within 0..100. -/
abbrev Channel.RangesOk (k : ChannelConfig) (c : Channel) : Prop :=
  c.setSpeed.toNat ≤ k.maxSpeed ∧ c.pwmDuty.toNat ≤ 100

/-- R129, R130, R147, R171: an Overload latch holds the channel Disabled and keeps the count that tripped; without one the count
is below the limit. -/
abbrev Channel.LatchOk (k : ChannelConfig) (c : Channel) : Prop :=
  (c.error = .overload → c.mode = .disabled ∧ c.strike.toNat = k.strikeLimit) ∧
    (c.error = .none → c.strike.toNat < k.strikeLimit)

/-- R92, R109 (I2, I3): what a switched-off option leaves stuck. -/
abbrev Channel.OptionsOk (k : ChannelConfig) (c : Channel) : Prop :=
  (k.tsEnable = false → c.edge1 = ⟨0, 0⟩ ∧ c.edge2 = ⟨0, 0⟩) ∧ (k.gainI = 0 → c.integ = 0)

/-- R137, R147, R129: LrMismatch holds both Y channels Disabled; `yerr` is Overload only with a Y channel's latch, and such a
latch never stands beside `yerr = None`. -/
abbrev Block.YLatchOk (b : Block) : Prop :=
  (b.yerr = .lrMismatch → b.yl.mode = .disabled ∧ b.yr.mode = .disabled) ∧
    (b.yerr = .overload → b.yl.error = .overload ∨ b.yr.error = .overload) ∧
    (b.yl.error = .overload ∨ b.yr.error = .overload → b.yerr ≠ .none)

/-- R50, R85: the sub-rate divider stays below `SUBRATE_N`. -/
abbrev Block.PhaseOk (k : Config) (b : Block) : Prop := b.tickPhase.toNat < k.subrateN

/-- R43 on every channel. -/
abbrev State.DriveOk (s : State) : Prop := ∀ m, (s.blk.chan m).DriveOk (s.cfg.chan m)

/-- R45 on every channel. -/
abbrev State.IntegralOk (s : State) : Prop := ∀ m, (s.blk.chan m).IntegralOk (s.cfg.chan m)

/-- The ranges of the outputs on every channel, and of the sub-rate divider. -/
abbrev State.RangesOk (s : State) : Prop :=
  (∀ m, (s.blk.chan m).RangesOk (s.cfg.chan m)) ∧ s.blk.PhaseOk s.cfg

/-- The fault latches on every channel and on the Y axis. -/
abbrev State.LatchOk (s : State) : Prop := (∀ m, (s.blk.chan m).LatchOk (s.cfg.chan m)) ∧ s.blk.YLatchOk

/-- The switched-off options on every channel. -/
abbrev State.OptionsOk (s : State) : Prop := ∀ m, (s.blk.chan m).OptionsOk (s.cfg.chan m)

/-- A safe state of a machine that runs: a valid configuration, and every invariant above. -/
def State.Safe (s : State) : Prop :=
  s.cfg.wf = true ∧ s.DriveOk ∧ s.IntegralOk ∧ s.RangesOk ∧ s.LatchOk ∧ s.OptionsOk

/-- Operations run one after another, each complete before the next (R63). -/
def runAll : List Instr → State → Result
  | [], s => .next s
  | i :: is, s =>
    match exec i s with
    | .next t => runAll is t
    | .fault f => .fault f
    | .refused r => .refused r

/-- The instruction is a host WRITE (R78, format W). -/
def isWrite (i : Instr) : Bool := (encode i).length == 2

end Sys2Proof.Machine
end

