-- ==== Sys2Proof/Certificates/Slice0/Obligations.lean ====
section
/-! DEFINITION. The statements for the provers. Each formalises rules of spec/, or says in its docstring what it rests on. The
words on the right of an equation are, where that is possible, Lean's own integers and bit extractions, not the model's
functions. -/

open Sys2Proof Sys2Proof.Machine

/-! ### Vocabulary of the statements -/

/-- A 32-bit signed value's range. -/
def Sys2Proof.Machine.InI32 (v : Int) : Prop := -2147483648 ≤ v ∧ v ≤ 2147483647

/-- The refused words of R79, on the word's number. -/
def Sys2Proof.Machine.SpellsNothing (w : Word) : Prop :=
  let n := w.toNat
  let kind := n / 2 ^ 28
  kind = 0 ∨ 6 ≤ kind ∨
    (kind = 1 ∧ (n / 2 ^ 4 % 2 ^ 8 ≠ 0 ∨ n / 2 ^ 2 % 2 ≠ 0 ∨ n % 4 = 3)) ∨
    (kind = 2 ∧ n % 2 ^ 28 ≠ 0) ∨
    (kind = 3 ∧ n / 2 ^ 6 % 2 ^ 22 ≠ 0) ∨
    ((kind = 4 ∨ kind = 5) ∧ n / 2 ^ 12 % 2 ^ 16 ≠ 0)

/-- The addresses that give a READ the error response: sub-causes a and b of R170. -/
def Sys2Proof.Machine.NotReadable (a : Addr) : Prop :=
  let n := a.toNat
  n % 4 ≠ 0 ∨ (0x038 ≤ n ∧ n ≤ 0x03F) ∨ (0x078 ≤ n ∧ n ≤ 0x07F) ∨ (0x0B8 ≤ n ∧ n ≤ 0x0FF) ∨ 0x114 ≤ n

/-- The nine addresses with a write rule: POS of any channel, CMD of channels 0 and 1, MODE of any channel, CTRL (R143). -/
def Sys2Proof.Machine.Writable (a : Addr) : Prop :=
  a.toNat ∈ [0x000, 0x040, 0x080, 0x004, 0x044, 0x010, 0x050, 0x090, 0x108]

/-- The channel gives Brake outputs (R18). -/
def Sys2Proof.Machine.Braked (k : ChannelConfig) (c : Channel) : Prop :=
  c.direction = .brake ∧ c.setSpeed.toNat = 0 ∧ c.pwmDuty = BitVec.ofNat 8 k.dutyBrake

/-- Everything of two blocks outside channel m is the same. -/
def Sys2Proof.Machine.SameOutside (m : Chan) (b b' : Block) : Prop :=
  (∀ n, n ≠ m → b'.chan n = b.chan n) ∧ b'.lr = b.lr ∧ b'.yerr = b.yerr ∧ b'.clrRefused = b.clrRefused ∧
    b'.ovfCnt = b.ovfCnt ∧ b'.tickPhase = b.tickPhase

/-- Neither switch of channel m is asserted in a TICK word (R73). -/
def Sys2Proof.Machine.switchesOff (sw : BitVec 6) : Chan → Prop
  | .x => sw.getLsbD 0 = false ∧ sw.getLsbD 1 = false
  | .yl => sw.getLsbD 2 = false ∧ sw.getLsbD 3 = false
  | .yr => sw.getLsbD 4 = false ∧ sw.getLsbD 5 = false

/-- An operation that is none of the three writers R26 gives channel m's position: not one of its EDGEs, not its WR_POS, and no
TICK with one of its switches asserted. -/
def Sys2Proof.Machine.WritesNoPosition (m : Chan) (i : Instr) : Prop :=
  (∀ level cap, i ≠ Instr.edge m level cap) ∧ (∀ d, i ≠ Instr.wrPos m d) ∧ ∀ sw, i = .tick sw → switchesOff sw m

/-- The operation is an EDGE on channel m. -/
def Sys2Proof.Machine.isEdgeOn : Chan → Instr → Bool
  | .x, .edgeX _ _ => true
  | .yl, .edgeYl _ _ => true
  | .yr, .edgeYr _ _ => true
  | _, _ => false

/-- How many EDGEs of channel m a list of operations holds. -/
def Sys2Proof.Machine.edgeCount (m : Chan) (is : List Instr) : Nat := (is.filter (isEdgeOn m)).length

/-- Detector evaluations of channel m, one for each measured speed. -/
def Sys2Proof.Machine.evaluations (k : Config) (m : Chan) : List Word → Block → Block
  | [], b => b
  | v :: vs, b => evaluations k m vs (overloadCheck k m (b.setChan m { b.chan m with speed := v }))

/-- The magnitude of the Y divergence at the start of an operation (R136). -/
def Sys2Proof.Machine.divergenceOf (b : Block) : Nat := (sat32 (b.yl.pos.toInt - b.yr.pos.toInt)).natAbs

/-- The tick that is about to run is a sub-rate tick (R85). -/
def Sys2Proof.Machine.OnSubrate (s : State) : Prop := s.blk.tickPhase.toNat + 1 = s.cfg.subrateN

/-- The channel would be charged a strike: driving in an unchanged direction, at full speed, below the floor (R127). -/
def Sys2Proof.Machine.Stalls (k : ChannelConfig) (c : Channel) : Prop :=
  c.direction ≠ .brake ∧ c.direction = c.lastDir ∧ c.setSpeed.toNat = k.maxSpeed ∧ c.speed.toNat < k.speedFloor

/-- The channel as a TICK samples its switches (R84). -/
def Sys2Proof.Machine.sampled (sw : BitVec 6) (m : Chan) (c : Channel) : Channel :=
  match m with
  | .x => { c with homeSw := sw.getLsbD 0, limitSw := sw.getLsbD 1 }
  | .yl => { c with homeSw := sw.getLsbD 2, limitSw := sw.getLsbD 3 }
  | .yr => { c with homeSw := sw.getLsbD 4, limitSw := sw.getLsbD 5 }

/-- What the controller of channel m starts from in a TICK, but for what the detector and the estimator write: the sampled
channel, the slave with the master's command (R84, R135). -/
def Sys2Proof.Machine.tickInput (sw : BitVec 6) (m : Chan) (b : Block) : Channel :=
  { sampled sw m (b.chan m) with cmd := if m = .yr then b.yl.cmd else (b.chan m).cmd }

/-- The cap on a channel's effective error in a TICK: the divergence on the slave, none on the others (R138, R139). -/
def Sys2Proof.Machine.errorCap (b : Block) : Chan → Option Int
  | .yr => some (sat32 (b.yl.pos.toInt - b.yr.pos.toInt))
  | _ => none

/-! ### Reset and configuration -/

/-- R189: reset writes every field of the state, under any configuration. (`resp` and `stimulus`, the model's own fields, are
not part of this statement.) -/
def Obligations.ResetValuesOfEveryField : Prop :=
  ∀ (k : Config) (m : Chan),
    let b := (State.resetWith k).blk
    let c := b.chan m
    (State.resetWith k).cfg = k ∧ c.pos = BitVec.ofInt 32 (k.chan m).homeOffset ∧ c.cmd = 0 ∧ c.err = 0 ∧ c.efferr = 0 ∧
      c.direction = .brake ∧ c.qdir = .forward ∧ c.setSpeed = 0 ∧ c.pwmDuty = BitVec.ofNat 8 (k.chan m).dutyBrake ∧
      c.mode = .disabled ∧ c.homeSw = false ∧ c.limitSw = false ∧ c.error = .none ∧ c.integ = 0 ∧ c.speed = 0 ∧
      c.prev = BitVec.ofInt 32 (k.chan m).homeOffset ∧ c.strike = 0 ∧ c.lastDir = .brake ∧ c.edge1 = ⟨0, 0⟩ ∧
      c.edge2 = ⟨0, 0⟩ ∧ b.lr = 0 ∧ b.yerr = .none ∧ b.clrRefused = false ∧ b.ovfCnt = 0 ∧ b.tickPhase = 0

/-- R144, R191: what every register reads right after reset, and the outputs. -/
def Obligations.RegistersReadTheirResetValues : Prop :=
  ∀ (k : Config), k.wf = true → ∀ (m : Chan),
    outEnable ((State.resetWith k).blk.chan m) = false ∧
    (∀ r, exec (Instr.rd m r) (State.resetWith k) = .next { State.resetWith k with resp := some ⟨.okay, some (match r with
      | .pos => BitVec.ofInt 32 (k.chan m).homeOffset
      | .prev => BitVec.ofInt 32 (k.chan m).homeOffset
      | .drive => BitVec.ofNat 32 ((k.chan m).dutyBrake * 256)
      | _ => 0)⟩ }) ∧
    ∀ g, exec (Instr.rdGlobal g) (State.resetWith k) = .next { State.resetWith k with resp := some ⟨.okay, some 0⟩ }

/-- R9: a configuration is valid exactly when every parameter is in the table's range. -/
def Obligations.ConfigurationRangesAreTheTables : Prop :=
  ∀ (k : Config), k.wf = true ↔
    (∀ m, let c := k.chan m
      InI32 c.homeOffset ∧ InI32 c.homePos ∧ InI32 c.limitPos ∧ 2 * c.boundary ≤ c.length ∧ c.length ≤ 2 ^ 31 - 1 ∧
        c.deadband ≤ 2 ^ 31 - 1 ∧ c.gainP < 2 ^ 16 ∧ 1 ≤ c.gainPFactor ∧ c.gainPFactor < 2 ^ 16 ∧ c.gainI < 2 ^ 16 ∧
        c.integralLimit ≤ 2 ^ 31 - 1 ∧ c.maxSpeed ≤ 100 ∧ 1 ≤ c.slewRate ∧ c.slewRate ≤ 100 ∧
        -(2 ^ 15 : Int) ≤ c.dutyFwdK ∧ c.dutyFwdK < 2 ^ 15 ∧ -(2 ^ 15 : Int) ≤ c.dutyRevK ∧ c.dutyRevK < 2 ^ 15 ∧
        1 ≤ c.dutyKDen ∧ c.dutyKDen < 2 ^ 16 ∧ c.dutyFwdOffset ≤ 100 ∧ c.dutyRevOffset ≤ 100 ∧ c.dutyBrake ≤ 100 ∧
        1 ≤ c.mmPerRev ∧ c.mmPerRev < 2 ^ 16 ∧ 1 ≤ c.ticksPerRev ∧ c.ticksPerRev < 2 ^ 16 ∧ c.speedFloor < 2 ^ 32 ∧
        1 ≤ c.strikeLimit ∧ c.strikeLimit < 2 ^ 16) ∧
      1 ≤ k.subrateN ∧ k.subrateN ≤ 1000 ∧ 1000 % k.subrateN = 0 ∧ 1 ≤ k.mismatchLimit ∧ k.mismatchLimit ≤ 2 ^ 31

/-- R10: a machine with an invalid configuration does not run and is not built; under a valid one every divisor is nonzero, the
clamp intervals are non-empty and the sub-rate divides the tick rate. -/
def Obligations.InvalidConfigurationDoesNotRun : Prop :=
  (∀ s : State, s.cfg.wf = false → step s = .refused .invalidConfiguration) ∧
    (∀ k : Config, k.wf = false → build k = none) ∧
    ∀ k : Config, k.wf = true → build k = some (State.resetWith k) ∧ k.subrateN ≠ 0 ∧ tickHz % k.subrateN = 0 ∧
      ∀ m, let c := k.chan m
        c.gainPFactor ≠ 0 ∧ c.dutyKDen ≠ 0 ∧ c.ticksPerRev ≠ 0 ∧ (c.boundary : Int) ≤ (c.length : Int) - c.boundary ∧
          -(c.integralLimit : Int) ≤ c.integralLimit

/-- R190: nothing changes the configuration. -/
def Obligations.ConfigurationNeverChanges : Prop :=
  ∀ s t : State, step s = .next t → t.cfg = s.cfg

/-! ### Decoding and the step -/

/-- R78, R69: the decoder reads every instruction of the map back from its own words, with every operand at every value, and
leaves the rest of the stream. -/
def Obligations.DecodeReadsBackEncode : Prop :=
  ∀ (i : Instr) (rest : List Word), decode (encode i ++ rest) = .operation (.instr i) rest

/-- R77, R80: whatever the decoder reads, an access with no rule among it, spells exactly the words it consumed; and such an
access is at an address the map does not give. -/
def Obligations.DecodedOperationSpellsItsWords : Prop :=
  ∀ (ws rest : List Word) (op : Operation), decode ws = .operation op rest → ws = encodeOperation op ++ rest ∧ op.wf = true

/-- R79: exactly the reserved words are refused, and refusing is all a step does with one. -/
def Obligations.ReservedWordsAreRefused : Prop :=
  ∀ (s : State) (w : Word) (rest : List Word), s.cfg.wf = true → s.stimulus = w :: rest →
    ((∃ r, r ≠ .missingData ∧ step s = .refused r) ↔ SpellsNothing w)

/-- R71 to R76: a few words of spec/95_test_vectors.md section 2.1, written out from the encoding, decode to what they stand for. -/
def Obligations.WrittenOutWordsDecode : Prop :=
  decode [0x10000008] = .operation (.instr (.edgeX true 0)) [] ∧
    decode [0x11234008] = .operation (.instr (.edgeX true 0x1234)) [] ∧
    decode [0x1FFFF00A] = .operation (.instr (.edgeYr true 0xFFFF)) [] ∧
    decode [0x10000001] = .operation (.instr (.edgeYl false 0)) [] ∧
    decode [0x20000000] = .operation (.instr .ovf) [] ∧
    decode [0x30000002] = .operation (.instr (.tick 0b000010)) [] ∧
    decode [0x40000108, 1] = .operation (.instr (.wrCtrl 1)) [] ∧
    decode [0x40000040, 1000] = .operation (.instr (.wrPosYl 1000)) [] ∧
    decode [0x50000100] = .operation (.instr .rdYstat) [] ∧
    decode [0x500000B4] = .operation (.instr .rdPeriodYr) [] ∧
    decode [0x50000038] = .operation (.unmappedRead 0x038) [] ∧
    decode [0x10000003] = .refused .channelThree ∧ decode [0x60000000] = .refused .reservedKind

/-- R57, R78: the words of every register access, from the address map. -/
def Obligations.AccessWordsFollowTheAddressMap : Prop :=
  ∀ m : Chan,
    (∀ r, encode (Instr.rd m r) = [0x50000000#32 + (chanBase m).setWidth 32 + (regOffset r).setWidth 32]) ∧
      (∀ g, encode (Instr.rdGlobal g) = [0x50000000#32 + (globalAddr g).setWidth 32]) ∧
      (∀ d, encode (Instr.wrPos m d) = [0x40000000#32 + (chanBase m).setWidth 32, d]) ∧
      (∀ d, encode (Instr.wrMode m d) = [0x40000010#32 + (chanBase m).setWidth 32, d]) ∧
      ∀ d, encode (.wrCmdX d) = [0x40000004, d] ∧ encode (.wrCmdYl d) = [0x40000044, d] ∧ encode (.wrCtrl d) = [0x40000108, d]

/-- R61, R69: a step runs the decoded instruction, on the state with that instruction's words taken off the stream. -/
def Obligations.StepRunsTheDecodedInstruction : Prop :=
  ∀ (s : State) (i : Instr) (rest : List Word), s.cfg.wf = true → decode s.stimulus = .operation (.instr i) rest →
    step s = exec i { s with stimulus := rest }

/-- R168, R173: no instruction stops the block: each answers a next state, in every state, and takes nothing off the stream.
R69, R169: a READ of the map ends in OKAY with a data word, a WRITE in a response without data, and an EDGE, OVF or TICK in none
(that the last response is a field of State, and what it holds where there is none, is the model's choice, log 3). -/
def Obligations.EveryInstructionCompletes : Prop :=
  ∀ (i : Instr) (s : State),
    let kind := ((encode i).headD 0).toNat / 2 ^ 28
    ∃ t, exec i s = .next t ∧ t.stimulus = s.stimulus ∧ t.cfg = s.cfg ∧ (kind ≤ 3 → t.resp = none) ∧
      (kind = 4 → ∃ code, t.resp = some ⟨code, none⟩) ∧ (kind = 5 → ∃ w, t.resp = some ⟨.okay, some w⟩)

/-- R63: a stream of encoded instructions runs them one at a time, in stream order. -/
def Obligations.StreamRunsInOrder : Prop :=
  ∀ (is : List Instr) (s : State) (rest : List Word), s.cfg.wf = true →
    Host.Core.run Sys2Proof.core is.length { s with stimulus := is.flatMap encode ++ rest } =
      runAll is { s with stimulus := rest }

/-! ### EDGE and OVF -/

/-- R90, R91, R92: an EDGE counts one tick in the direction the wiring polarity gives, saturating at the i32 range, and rotates
the timestamp buffer of a channel that has one, at saturation too. EDGE.X, EDGE.YL, EDGE.YR. -/
def Obligations.EdgeCountsAndRotates : Prop :=
  ∀ (m : Chan) (level : Bool) (cap : Capture) (s : State), ∃ t, exec (Instr.edge m level cap) s = .next t ∧
    (level = (s.cfg.chan m).qdBHighFwd → (t.blk.chan m).qdir = .forward ∧
      (t.blk.chan m).pos.toInt = min ((s.blk.chan m).pos.toInt + 1) (2 ^ 31 - 1)) ∧
    (level ≠ (s.cfg.chan m).qdBHighFwd → (t.blk.chan m).qdir = .reverse ∧
      (t.blk.chan m).pos.toInt = max ((s.blk.chan m).pos.toInt - 1) (-2 ^ 31)) ∧
    ((s.cfg.chan m).tsEnable = true →
      (t.blk.chan m).edge1 = (s.blk.chan m).edge2 ∧ (t.blk.chan m).edge2 = ⟨cap, s.blk.ovfCnt⟩) ∧
    ((s.cfg.chan m).tsEnable = false →
      (t.blk.chan m).edge1 = (s.blk.chan m).edge1 ∧ (t.blk.chan m).edge2 = (s.blk.chan m).edge2)

/-- R89, R96: an EDGE changes nothing outside its channel, and in it only pos, qdir and the timestamps. -/
def Obligations.EdgeFrame : Prop :=
  ∀ (m : Chan) (level : Bool) (cap : Capture) (s t : State), exec (Instr.edge m level cap) s = .next t →
    SameOutside m s.blk t.blk ∧ t.cfg = s.cfg ∧ t.stimulus = s.stimulus ∧
      t.blk.chan m = { s.blk.chan m with pos := (t.blk.chan m).pos, qdir := (t.blk.chan m).qdir,
                                         edge1 := (t.blk.chan m).edge1, edge2 := (t.blk.chan m).edge2 }

/-- R95: N Forward edges then M Reverse edges on channel m, at whatever captured values, with any operations between them that
write no position of the channel. -/
def Obligations.EdgeRoundTripOfTheCount : Prop :=
  ∀ (m : Chan) (s : State) (fwd rev : List Instr),
    (∀ i ∈ fwd, (∃ cap, i = Instr.edge m (s.cfg.chan m).qdBHighFwd cap) ∨ WritesNoPosition m i) →
    (∀ i ∈ rev, (∃ cap, i = Instr.edge m (!(s.cfg.chan m).qdBHighFwd) cap) ∨ WritesNoPosition m i) →
    ∃ t, runAll (fwd ++ rev) s = .next t ∧ (t.blk.chan m).pos.toInt =
      max (min ((s.blk.chan m).pos.toInt + edgeCount m fwd) (2 ^ 31 - 1) - edgeCount m rev) (-2 ^ 31)

/-- R97: OVF counts modulo 256 and changes nothing else of the block. -/
def Obligations.OverflowCountsModulo256 : Prop :=
  ∀ s : State, ∃ t, exec .ovf s = .next t ∧ t.blk.ovfCnt.toNat = (s.blk.ovfCnt.toNat + 1) % 256 ∧
    t.blk = { s.blk with ovfCnt := t.blk.ovfCnt } ∧ t.cfg = s.cfg ∧ t.stimulus = s.stimulus

/-- R93, R162: RD_PERIOD returns the time between the last two latched edges in 24 bits, by the rule's formula and as the
difference of the two 24-bit times. RD_PERIOD.X, .YL, .YR. -/
def Obligations.PeriodIsTheTimeBetweenEdges : Prop :=
  ∀ (m : Chan) (s : State),
    let e1 := (s.blk.chan m).edge1
    let e2 := (s.blk.chan m).edge2
    ∃ w : Word, exec (Instr.rd m .period) s = .next { s with resp := some ⟨.okay, some w⟩ } ∧
      (w.toNat : Int) =
        ((((e2.ovf.toNat : Int) - e1.ovf.toNat) % 256) * 65536 + e2.cap.toNat - e1.cap.toNat) % 2 ^ 24 ∧
      (w.toNat : Int) =
        ((e2.ovf.toNat * 65536 + e2.cap.toNat : Int) - (e1.ovf.toNat * 65536 + e1.cap.toNat)) % 2 ^ 24

/-! ### TICK: sampling, sub-rate, estimator, detector -/

/-- R84, R85: a TICK samples the six switch levels, and advances the sub-rate divider, which returns to 0 at `SUBRATE_N`. -/
def Obligations.TickSamplesSwitchesAndAdvancesPhase : Prop :=
  ∀ (s : State) (sw : BitVec 6), s.cfg.wf = true → s.blk.PhaseOk s.cfg → ∃ t, exec (.tick sw) s = .next t ∧
    t.blk.x.homeSw = sw.getLsbD 0 ∧ t.blk.x.limitSw = sw.getLsbD 1 ∧ t.blk.yl.homeSw = sw.getLsbD 2 ∧
    t.blk.yl.limitSw = sw.getLsbD 3 ∧ t.blk.yr.homeSw = sw.getLsbD 4 ∧ t.blk.yr.limitSw = sw.getLsbD 5 ∧
    t.blk.tickPhase.toNat = (if s.blk.tickPhase.toNat + 1 = s.cfg.subrateN then 0 else s.blk.tickPhase.toNat + 1)

/-- R83: what a TICK never writes: the decoder's direction and timestamps, the overflow count, the refusal flag, the
configuration and the stream; on the master and on X, the command of a channel that does not end in PositionControl. -/
def Obligations.TickFrame : Prop :=
  ∀ (s t : State) (sw : BitVec 6), exec (.tick sw) s = .next t →
    t.cfg = s.cfg ∧ t.stimulus = s.stimulus ∧ t.blk.ovfCnt = s.blk.ovfCnt ∧
      t.blk.clrRefused = s.blk.clrRefused ∧
      ∀ m, (t.blk.chan m).qdir = (s.blk.chan m).qdir ∧ (t.blk.chan m).edge1 = (s.blk.chan m).edge1 ∧
        (t.blk.chan m).edge2 = (s.blk.chan m).edge2 ∧
        (m ≠ .yr → (t.blk.chan m).mode ≠ .positionControl → (t.blk.chan m).cmd = (s.blk.chan m).cmd)

/-- R83, R86, R88, R138, R139: every TICK, with any `SUBRATE_N`, runs the X controller, and both Y controllers when the
divergence is below the limit. A plain tick runs them on the sampled channels, and changes no Y fault when it does not trip. A
sub-rate tick runs them on the sampled channels with what the detector and the estimator wrote: the count, direction, speed and
sample that `SubrateTickCountsStrikes` and `SubrateTickMeasuresSpeed` give, and in a channel it latches the entry of R129. -/
def Obligations.TickRunsTheControllers : Prop :=
  ∀ (s : State) (sw : BitVec 6), ∃ t, exec (.tick sw) s = .next t ∧
    (¬ OnSubrate s → divergenceOf s.blk < s.cfg.mismatchLimit → t.blk.yerr = s.blk.yerr) ∧
    ∀ m, m = .x ∨ divergenceOf s.blk < s.cfg.mismatchLimit →
      let d := t.blk.chan m
      let i := tickInput sw m s.blk
      let checked := { i with strike := d.strike, lastDir := d.lastDir, speed := d.speed, prev := d.prev }
      let runs (c : Channel) := d = control (s.cfg.chan m) (errorCap s.blk m) c
      (¬ OnSubrate s → runs i) ∧
        (OnSubrate s → d.error = (s.blk.chan m).error → runs checked) ∧
        (OnSubrate s → d.error ≠ (s.blk.chan m).error →
          runs { checked with error := .overload, mode := .disabled, direction := .brake, setSpeed := 0,
                              pwmDuty := BitVec.ofNat 8 (s.cfg.chan m).dutyBrake })

/-- R98, R99, R100: on a sub-rate tick the speed is the exact rate of the position's change since the last sample, in mm/s,
saturated to u32, and the sample is the position the tick started with; on any other tick both stay. -/
def Obligations.SubrateTickMeasuresSpeed : Prop :=
  ∀ (s t : State) (sw : BitVec 6), exec (.tick sw) s = .next t → ∀ m,
    let c := s.blk.chan m
    let k := s.cfg.chan m
    (OnSubrate s → (t.blk.chan m).prev = c.pos ∧ (t.blk.chan m).speed.toNat =
      min ((c.pos.toInt - c.prev.toInt).natAbs * (1000 / s.cfg.subrateN) * k.mmPerRev / k.ticksPerRev) (2 ^ 32 - 1)) ∧
    (¬ OnSubrate s → (t.blk.chan m).prev = c.prev ∧ (t.blk.chan m).speed = c.speed)

/-- R125 to R131, R86: on a sub-rate tick the detector counts strikes from the direction, speeds and count the tick started with,
and latches when the count reaches `STRIKE_LIMIT`; on any other tick, and on a latched channel, it does nothing. That this holds
whatever the mode, so that a Disabled or Manual channel whose outputs still drive is counted and latched too, is the model's
reading of R125 beside R133 (DEDUCED, log 10). -/
def Obligations.SubrateTickCountsStrikes : Prop :=
  ∀ (s t : State) (sw : BitVec 6), exec (.tick sw) s = .next t → ∀ m,
    let c := s.blk.chan m
    let k := s.cfg.chan m
    let d := t.blk.chan m
    (¬ OnSubrate s ∨ c.error = .overload → d.strike = c.strike ∧ d.lastDir = c.lastDir ∧ d.error = c.error) ∧
    (OnSubrate s → c.error = .none →
      d.lastDir = c.direction ∧
      (Stalls k c → d.strike.toNat = min (c.strike.toNat + 1) 65535 ∧
        (d.error = .overload ↔ k.strikeLimit ≤ d.strike.toNat)) ∧
      (¬ Stalls k c → d.strike = 0 ∧ d.error = .none))

/-- R129: what the Overload latch writes, and that it writes nothing else. -/
def Obligations.OverloadLatchEntry : Prop :=
  ∀ (k : Config) (m : Chan) (b : Block),
    let b' := latchOverload k m b
    let c := b.chan m
    b'.chan m = { c with error := .overload, mode := .disabled, direction := .brake, setSpeed := 0,
                         pwmDuty := BitVec.ofNat 8 (k.chan m).dutyBrake } ∧
      (∀ n, n ≠ m → b'.chan n = b.chan n) ∧
      (m ≠ .x → b.yerr = .none → b'.yerr = .overload) ∧ (m = .x ∨ b.yerr ≠ .none → b'.yerr = b.yerr) ∧
      b'.lr = b.lr ∧ b'.clrRefused = b.clrRefused ∧ b'.ovfCnt = b.ovfCnt ∧ b'.tickPhase = b.tickPhase

/-- R129, R176, R177: a TICK that latches an Overload ends with the channel Disabled and braked; on X, and on a Y channel when
the synchronizer does not trip, with a zero integral. A Y channel's Overload is the Y fault afterwards unless one was held before,
which stays, and a Y channel that did not latch keeps its mode, both also when the divergence is at the limit. -/
def Obligations.OverloadTakesEffectInItsTick : Prop :=
  ∀ (s t : State) (sw : BitVec 6) (m : Chan), exec (.tick sw) s = .next t → (s.blk.chan m).error = .none →
    (t.blk.chan m).error = .overload →
      (t.blk.chan m).mode = .disabled ∧ Braked (s.cfg.chan m) (t.blk.chan m) ∧
        (m = .x ∨ divergenceOf s.blk < s.cfg.mismatchLimit → (t.blk.chan m).integ = 0) ∧
        (m ≠ .x → (s.blk.yerr = .none → t.blk.yerr = .overload) ∧ (s.blk.yerr ≠ .none → t.blk.yerr = s.blk.yerr) ∧
          ∀ n, n ≠ .x → (t.blk.chan n).error = (s.blk.chan n).error → (t.blk.chan n).mode = (s.blk.chan n).mode)

/-- R132: with the output held at full speed in one direction and the count at 0, a run of below-floor evaluations shorter than
`STRIKE_LIMIT` only counts, one evaluation at the floor then ends it, and `STRIKE_LIMIT` of them latch the fault. -/
def Obligations.StrikesAccumulateAndReset : Prop :=
  ∀ (k : Config) (m : Chan) (b : Block) (speeds : List Word), k.wf = true →
    (b.chan m).error = .none → (b.chan m).direction ≠ .brake → (b.chan m).lastDir = (b.chan m).direction →
    (b.chan m).setSpeed.toNat = (k.chan m).maxSpeed → (b.chan m).strike = 0 →
    (∀ v ∈ speeds, v.toNat < (k.chan m).speedFloor) →
      (speeds.length < (k.chan m).strikeLimit →
        ((evaluations k m speeds b).chan m).error = .none ∧
          ((evaluations k m speeds b).chan m).strike.toNat = speeds.length ∧
          ∀ v : Word, (k.chan m).speedFloor ≤ v.toNat →
            ((evaluations k m (speeds ++ [v]) b).chan m).strike = 0 ∧
              ((evaluations k m (speeds ++ [v]) b).chan m).error = .none) ∧
      (speeds.length = (k.chan m).strikeLimit →
        ((evaluations k m speeds b).chan m).error = .overload ∧ ((evaluations k m speeds b).chan m).mode = .disabled)

/-! ### The controller and the output stage -/

/-- R104: through a TICK, a channel that is not in PositionControl is braked and keeps pos, err and efferr; its integral is
cleared, but for a Y channel in a tick whose synchronizer trips, where it stays (R137). -/
def Obligations.ModeGateBrakes : Prop :=
  ∀ (s : State) (sw : BitVec 6) (m : Chan), (s.blk.chan m).mode ≠ .positionControl → ∃ t, exec (.tick sw) s = .next t ∧
    Braked (s.cfg.chan m) (t.blk.chan m) ∧ (t.blk.chan m).pos = (s.blk.chan m).pos ∧
      (t.blk.chan m).err = (s.blk.chan m).err ∧ (t.blk.chan m).efferr = (s.blk.chan m).efferr ∧
      (m ≠ .yr → (t.blk.chan m).cmd = (s.blk.chan m).cmd) ∧
      (m = .x ∨ divergenceOf s.blk < s.cfg.mismatchLimit → (t.blk.chan m).integ = 0) ∧
      (m ≠ .x → s.cfg.mismatchLimit ≤ divergenceOf s.blk → (t.blk.chan m).integ = (s.blk.chan m).integ)

/-- R105, R106, R107, R115: steps 2 to 4 on an enabled channel: the clamped command, the overridden position, the own error of
those two, and the effective error under the cap. -/
def Obligations.EnabledControllerComputesItsError : Prop :=
  ∀ (k : ChannelConfig) (cap : Option Int) (c : Channel), k.wf = true → c.mode = .positionControl →
    (∀ v ∈ cap, InI32 v) →
    let d := control k cap c
    (d.cmd.toNat : Int) = min (max (c.cmd.toNat : Int) k.boundary) ((k.length : Int) - k.boundary) ∧
      d.pos.toInt = (if c.homeSw then k.homePos else if c.limitSw then k.limitPos else c.pos.toInt) ∧
      d.err.toInt = min (max ((d.cmd.toNat : Int) - d.pos.toInt) (-2 ^ 31)) (2 ^ 31 - 1) ∧
      (cap = none → d.efferr = d.err) ∧ ∀ v, cap = some v → d.efferr.toInt = min d.err.toInt v

/-- R114, R108: within the deadband an enabled channel brakes with a zero integral, whatever it did before. -/
def Obligations.DeadbandBrakes : Prop :=
  ∀ (k : ChannelConfig) (cap : Option Int) (c : Channel), k.wf = true → c.mode = .positionControl →
    (∀ v ∈ cap, InI32 v) → (control k cap c).efferr.toInt.natAbs ≤ k.deadband →
      Braked k (control k cap c) ∧ (control k cap c).integ = 0

/-- R109, R113: outside the deadband the integral takes the truncated quotient and is clamped; a zero divisor turns it off. -/
def Obligations.IntegralAccumulates : Prop :=
  ∀ (k : ChannelConfig) (cap : Option Int) (c : Channel), k.wf = true → c.mode = .positionControl →
    (∀ v ∈ cap, InI32 v) → k.deadband < (control k cap c).efferr.toInt.natAbs →
      (k.gainI = 0 → (control k cap c).integ = 0) ∧
        (k.gainI ≠ 0 → (control k cap c).integ.toInt =
          min (max (c.integ.toInt + Int.tdiv (control k cap c).efferr.toInt k.gainI) (-(k.integralLimit : Int)))
            k.integralLimit)

/-- R110 to R112, R118 to R121: outside the deadband the output follows the sum of the integral just written and the
proportional term: its sign and clamped magnitude, the interlock against a direct reversal, the slew limit and the affine duty
map. -/
def Obligations.OutputFollowsTheControlSum : Prop :=
  ∀ (k : ChannelConfig) (cap : Option Int) (c : Channel), k.wf = true → c.mode = .positionControl →
    (∀ v ∈ cap, InI32 v) → k.deadband < (control k cap c).efferr.toInt.natAbs →
    let d := control k cap c
    let ec := d.integ.toInt + Int.tdiv (d.efferr.toInt * k.gainP) k.gainPFactor
    let target := min ec.natAbs k.maxSpeed
    (target = 0 → Braked k d) ∧
      (0 < ec → target ≠ 0 → c.direction = .reverse → Braked k d) ∧
      (ec < 0 → target ≠ 0 → c.direction = .forward → Braked k d) ∧
      (0 < ec → target ≠ 0 → c.direction ≠ .reverse →
        d.direction = .forward ∧ d.setSpeed.toNat = min target (c.setSpeed.toNat + k.slewRate) ∧
          (d.pwmDuty.toNat : Int) =
            min (max (k.dutyFwdOffset + Int.tdiv (k.dutyFwdK * d.setSpeed.toNat) k.dutyKDen) 0) 100) ∧
      (ec < 0 → target ≠ 0 → c.direction ≠ .forward →
        d.direction = .reverse ∧ d.setSpeed.toNat = min target (c.setSpeed.toNat + k.slewRate) ∧
          (d.pwmDuty.toNat : Int) =
            min (max (k.dutyRevOffset + Int.tdiv (k.dutyRevK * d.setSpeed.toNat) k.dutyKDen) 0) 100)

/-- R103: the controller writes cmd, pos, err, efferr, integ and the outputs, and nothing else of its channel. -/
def Obligations.ControllerFrame : Prop :=
  ∀ (k : ChannelConfig) (cap : Option Int) (c : Channel),
    let d := control k cap c
    d = { c with cmd := d.cmd, pos := d.pos, err := d.err, efferr := d.efferr, integ := d.integ, direction := d.direction,
                 setSpeed := d.setSpeed, pwmDuty := d.pwmDuty } ∧
      (c.mode ≠ .positionControl → d.cmd = c.cmd ∧ d.pos = c.pos ∧ d.err = c.err ∧ d.efferr = c.efferr)

/-- R119: whatever one step does, an applied speed rises by at most `SLEW_RATE`. -/
def Obligations.AppliedSpeedRisesByAtMostTheSlewRate : Prop :=
  ∀ (s t : State) (m : Chan), step s = .next t →
    (t.blk.chan m).setSpeed.toNat ≤ (s.blk.chan m).setSpeed.toNat + (s.cfg.chan m).slewRate

/-- R123, R122: no step takes a channel's commanded direction from Forward to Reverse or back. -/
def Obligations.NoDirectReversal : Prop :=
  ∀ (s t : State) (m : Chan), step s = .next t →
    ¬ ((s.blk.chan m).direction = .forward ∧ (t.blk.chan m).direction = .reverse) ∧
      ¬ ((s.blk.chan m).direction = .reverse ∧ (t.blk.chan m).direction = .forward)

/-! ### The synchronizer -/

/-- R136: every TICK leaves in lr the divergence of the positions the tick started with, saturated to i32. -/
def Obligations.TickRecordsTheDivergence : Prop :=
  ∀ (s t : State) (sw : BitVec 6), exec (.tick sw) s = .next t →
    t.blk.lr.toInt = min (max (s.blk.yl.pos.toInt - s.blk.yr.pos.toInt) (-2 ^ 31)) (2 ^ 31 - 1)

/-- R137, R172, R176: a divergence at the limit brakes both Y channels in every mode and skips their controllers. With no Y
fault before the synchronizer runs (none held, and no Y channel's Overload latched in this tick) it latches LrMismatch and disables
both. With one held it keeps it (R47); with an Overload latched in this tick and none held before, the Y fault is that Overload;
and in both cases a Y channel keeps its mode, but for one that latched in this tick, which is Disabled. -/
def Obligations.MismatchTripsTheYAxis : Prop :=
  ∀ (s : State) (sw : BitVec 6), s.cfg.mismatchLimit ≤ divergenceOf s.blk → ∃ t, exec (.tick sw) s = .next t ∧
    (∀ m, m ≠ .x → Braked (s.cfg.chan m) (t.blk.chan m) ∧ (t.blk.chan m).pos = (s.blk.chan m).pos ∧
      (t.blk.chan m).err = (s.blk.chan m).err ∧ (t.blk.chan m).efferr = (s.blk.chan m).efferr ∧
      (t.blk.chan m).integ = (s.blk.chan m).integ) ∧
    let latched (m : Chan) := (t.blk.chan m).error ≠ (s.blk.chan m).error
    (s.blk.yerr = .none → ¬ latched .yl → ¬ latched .yr →
      t.blk.yerr = .lrMismatch ∧ t.blk.yl.mode = .disabled ∧ t.blk.yr.mode = .disabled) ∧
    (s.blk.yerr ≠ .none → t.blk.yerr = s.blk.yerr) ∧
    (s.blk.yerr = .none → latched .yl ∨ latched .yr → t.blk.yerr = .overload) ∧
    (s.blk.yerr ≠ .none ∨ latched .yl ∨ latched .yr → ∀ m, m ≠ .x →
      (¬ latched m → (t.blk.chan m).mode = (s.blk.chan m).mode) ∧ (latched m → (t.blk.chan m).mode = .disabled))

/-- R138, R139, R29: after a tick that does not trip, an enabled slave's effective error is its own error capped by the
divergence of that tick, and an enabled master's, like X's, is its own. -/
def Obligations.SlaveErrorIsCappedByDivergence : Prop :=
  ∀ (s t : State) (sw : BitVec 6), s.cfg.wf = true → exec (.tick sw) s = .next t →
    divergenceOf s.blk < s.cfg.mismatchLimit →
      (t.blk.yr.mode = .positionControl → t.blk.yr.efferr.toInt = min t.blk.yr.err.toInt t.blk.lr.toInt) ∧
        (t.blk.yl.mode = .positionControl → t.blk.yl.efferr = t.blk.yl.err) ∧
        (t.blk.x.mode = .positionControl → t.blk.x.efferr = t.blk.x.err)

/-- R135 with R197 (log 6 says how R44 is read beside them): every TICK copies the master's command as the tick found it; a
slave whose controller ran has clamped the copy with its own bounds, and otherwise the copy stands. -/
def Obligations.SlaveCommandFollowsTheMaster : Prop :=
  ∀ (s t : State) (sw : BitVec 6), s.cfg.wf = true → exec (.tick sw) s = .next t →
    (t.blk.yr.mode ≠ .positionControl ∨ s.cfg.mismatchLimit ≤ divergenceOf s.blk → t.blk.yr.cmd = s.blk.yl.cmd) ∧
      (t.blk.yr.mode = .positionControl → divergenceOf s.blk < s.cfg.mismatchLimit →
        (t.blk.yr.cmd.toNat : Int) =
          min (max (s.blk.yl.cmd.toNat : Int) s.cfg.yr.boundary) ((s.cfg.yr.length : Int) - s.cfg.yr.boundary))

/-! ### Host accesses -/

/-- R145: WR_POS loads the position of its channel and changes nothing else of the block. WR_POS.X, .YL, .YR. -/
def Obligations.WritePosLoadsThePosition : Prop :=
  ∀ (m : Chan) (d : Word) (s : State),
    exec (Instr.wrPos m d) s =
      .next { s with blk := s.blk.setChan m { s.blk.chan m with pos := d }, resp := some ⟨.okay, none⟩ }

/-- R146: WR_CMD stores its word unclamped and changes nothing else of the block. WR_CMD.X, .YL. -/
def Obligations.WriteCmdStoresTheCommand : Prop :=
  ∀ (d : Word) (s : State),
    exec (.wrCmdX d) s = .next { s with blk := { s.blk with x := { s.blk.x with cmd := d } }, resp := some ⟨.okay, none⟩ } ∧
      exec (.wrCmdYl d) s =
        .next { s with blk := { s.blk with yl := { s.blk.yl with cmd := d } }, resp := some ⟨.okay, none⟩ }

/-- R147: WR_MODE sets a legal mode and answers OKAY, or answers ERR and changes nothing: for a reserved value, and for leaving
Disabled while the channel's latch holds. WR_MODE.X, .YL, .YR. -/
def Obligations.WriteModeSetsALegalMode : Prop :=
  ∀ (m : Chan) (d : Word) (s : State),
    let locked := (s.blk.chan m).error = .overload ∨ (m ≠ .x ∧ s.blk.yerr = .lrMismatch)
    let set (v : Mode) := Host.Outcome.next (φ := Fault) (ρ := Refusal)
      { s with blk := s.blk.setChan m { s.blk.chan m with mode := v }, resp := some ⟨.okay, none⟩ }
    let err := Host.Outcome.next (φ := Fault) (ρ := Refusal) { s with resp := some ⟨.err, none⟩ }
    (d.toNat = 0 → exec (Instr.wrMode m d) s = set .disabled) ∧
      (d.toNat = 1 → ¬ locked → exec (Instr.wrMode m d) s = set .manual) ∧
      (d.toNat = 2 → ¬ locked → exec (Instr.wrMode m d) s = set .positionControl) ∧
      (d.toNat = 1 ∨ d.toNat = 2 → locked → exec (Instr.wrMode m d) s = err) ∧
      (3 ≤ d.toNat → exec (Instr.wrMode m d) s = err)

/-- R148, R149: WR_CTRL with 0 does nothing, with 1 runs CLEAR, which is refused while an LrMismatch latch's divergence is
still at the limit and otherwise clears every latch and count and no mode; a nonzero reserved bit gets ERR. -/
def Obligations.WriteCtrlClearsAllOrNothing : Prop :=
  ∀ (d : Word) (s : State),
    let persists := s.blk.yerr = .lrMismatch ∧ s.cfg.mismatchLimit ≤ divergenceOf s.blk
    (d.toNat = 0 → exec (.wrCtrl d) s = .next { s with resp := some ⟨.okay, none⟩ }) ∧
      (d.toNat = 1 → persists →
        exec (.wrCtrl d) s = .next { s with blk := { s.blk with clrRefused := true }, resp := some ⟨.okay, none⟩ }) ∧
      (d.toNat = 1 → ¬ persists → exec (.wrCtrl d) s = .next { s with
          blk := { s.blk with x := { s.blk.x with error := .none, strike := 0 },
                              yl := { s.blk.yl with error := .none, strike := 0 },
                              yr := { s.blk.yr with error := .none, strike := 0 },
                              yerr := .none, clrRefused := false },
          resp := some ⟨.okay, none⟩ }) ∧
      (2 ≤ d.toNat → exec (.wrCtrl d) s = .next { s with resp := some ⟨.err, none⟩ })

/-- R178, R196: recovery of the Y axis. From any state, whatever is latched, loading two positions closer than the limit, then
CLEAR, then WR_MODE of both channels ends with no latch, no strike and both channels in PositionControl; X keeps its mode. -/
def Obligations.RecoveryIsClearThenMode : Prop :=
  ∀ (s : State) (p q : Word), (sat32 (p.toInt - q.toInt)).natAbs < s.cfg.mismatchLimit →
    ∃ t, runAll [.wrPosYl p, .wrPosYr q, .wrCtrl 1, .wrModeYl 2, .wrModeYr 2] s = .next t ∧ t.blk.yerr = .none ∧
      t.blk.clrRefused = false ∧ (∀ m, (t.blk.chan m).error = .none ∧ (t.blk.chan m).strike = 0) ∧
      t.blk.yl.pos = p ∧ t.blk.yr.pos = q ∧ t.blk.yl.mode = .positionControl ∧ t.blk.yr.mode = .positionControl ∧
      t.blk.x.mode = s.blk.x.mode ∧ t.resp = some ⟨.okay, none⟩

/-- R62: every WRITE is idempotent: a second one leaves what the first one left, its response included. -/
def Obligations.WritesAreIdempotent : Prop :=
  ∀ (i : Instr) (s t : State), isWrite i = true → exec i s = .next t → exec i t = .next t

/-- R150 to R153, R157 to R159, R62: the full-word registers read as the field's two's-complement or unsigned word, and a READ
changes no state. RD_POS, RD_CMD, RD_ERR, RD_EFFERR, RD_INTEG, RD_SPEED, RD_PREV of each channel, RD_LRERR, and RD_CTRL, which
reads 0. -/
def Obligations.WordRegistersReadTheirField : Prop :=
  ∀ (m : Chan) (s : State),
    let c := s.blk.chan m
    let answers (i : Instr) (w : Word) := exec i s = .next { s with resp := some ⟨.okay, some w⟩ }
    answers (Instr.rd m .pos) c.pos ∧ answers (Instr.rd m .cmd) c.cmd ∧ answers (Instr.rd m .err) c.err ∧
      answers (Instr.rd m .efferr) c.efferr ∧ answers (Instr.rd m .integ) c.integ ∧ answers (Instr.rd m .speed) c.speed ∧
      answers (Instr.rd m .prev) c.prev ∧ answers .rdLrerr s.blk.lr ∧ answers .rdCtrl 0

/-- R155: RD_STATUS packs the status fields at their bits, with every other bit 0, and changes no state. RD_STATUS.X, .YL, .YR. -/
def Obligations.StatusRegisterPacksItsFields : Prop :=
  ∀ (m : Chan) (s : State), ∃ w : Word, exec (Instr.rd m .status) s = .next { s with resp := some ⟨.okay, some w⟩ } ∧
    let c := s.blk.chan m
    let code (d : Direction) : Nat := match d with
      | .brake => 0
      | .forward => 1
      | .reverse => 2
    w.toNat % 4 = code c.direction ∧ (w.getLsbD 2 = true ↔ c.qdir = .reverse) ∧ w.getLsbD 3 = c.homeSw ∧
      w.getLsbD 4 = c.limitSw ∧ (w.getLsbD 5 = true ↔ c.error = .overload) ∧
      (w.getLsbD 6 = true ↔ c.mode = .positionControl) ∧ w.getLsbD 7 = false ∧ w.toNat / 2 ^ 8 = code c.lastDir

/-- R154, R156, R160, R161, R163, R166, R167: the other packed registers hold their fields at their bits, with every other bit 0, and
a READ changes no state. RD_MODE, RD_DRIVE, RD_STRIKE, RD_EDGE1, RD_EDGE2 of each channel, RD_YSTAT, RD_OVFCNT, RD_PHASE. -/
def Obligations.PackedRegistersHoldTheirFields : Prop :=
  ∀ (m : Chan) (s : State),
    let c := s.blk.chan m
    let answers (i : Instr) (n : Nat) := n < 2 ^ 32 ∧ exec i s = .next { s with resp := some ⟨.okay, some (BitVec.ofNat 32 n)⟩ }
    answers (Instr.rd m .mode) (match c.mode with
      | .disabled => 0
      | .manual => 1
      | .positionControl => 2) ∧
      answers (Instr.rd m .drive) (c.pwmDuty.toNat * 2 ^ 8 + c.setSpeed.toNat) ∧
      answers (Instr.rd m .strike) c.strike.toNat ∧
      answers (Instr.rd m .edge1) (c.edge1.ovf.toNat * 2 ^ 16 + c.edge1.cap.toNat) ∧
      answers (Instr.rd m .edge2) (c.edge2.ovf.toNat * 2 ^ 16 + c.edge2.cap.toNat) ∧
      answers .rdYstat ((if s.blk.clrRefused then 2 ^ 8 else 0) + match s.blk.yerr with
        | .none => 0
        | .overload => 1
        | .lrMismatch => 2) ∧
      answers .rdOvfcnt s.blk.ovfCnt.toNat ∧ answers .rdPhase s.blk.tickPhase.toNat

/-- R143, R169, R170 (a, b), R58: a READ word answers ERR at exactly the reserved and misaligned addresses, with the block
unchanged; at every other address it answers OKAY with the word the bus holds there, whose little-endian bytes are those at the
four byte addresses. (The data word of an ERR is left open, I25.) -/
def Obligations.ReadsAnswerByAddress : Prop :=
  ∀ (s : State) (a : Addr) (rest : List Word), s.cfg.wf = true →
    s.stimulus = BitVec.ofNat 32 (0x50000000 + a.toNat) :: rest →
      (NotReadable a → busWord s.blk a = none ∧
        ∃ d, step s = .next { s with stimulus := rest, resp := some ⟨.err, d⟩ }) ∧
      (¬ NotReadable a → ∃ w, busWord s.blk a = some w ∧
        step s = .next { s with stimulus := rest, resp := some ⟨.okay, some w⟩ } ∧
        ∀ j : Fin 4, busByte s.blk (a + BitVec.ofNat 12 j) = some (BitVec.ofNat 8 (w.toNat / 2 ^ (8 * j.val))))

/-- R143, R146, R169, R170 (a to d): a WRITE to any address but the nine with a write rule answers ERR and changes nothing. -/
def Obligations.WritesOutsideTheMapAnswerErr : Prop :=
  ∀ (s : State) (a : Addr) (d : Word) (rest : List Word), s.cfg.wf = true →
    s.stimulus = BitVec.ofNat 32 (0x40000000 + a.toNat) :: d :: rest → ¬ Writable a →
      step s = .next { s with stimulus := rest, resp := some ⟨.err, none⟩ }

/-! ### Whole-machine rules -/

/-- R26: the position of a channel is written by its EDGEs, its WR_POS, and the switch override of an enabled channel in a TICK,
and by nothing else. -/
def Obligations.PositionHasThreeWriters : Prop :=
  ∀ (i : Instr) (s t : State) (m : Chan), exec i s = .next t → (t.blk.chan m).pos ≠ (s.blk.chan m).pos →
    (∃ level cap, i = Instr.edge m level cap) ∨ (∃ d, i = Instr.wrPos m d) ∨
      ∃ sw, i = .tick sw ∧ (s.blk.chan m).mode = .positionControl ∧
        ((t.blk.chan m).homeSw = true ∨ (t.blk.chan m).limitSw = true)

/-- R183, R34: a channel enters Manual or PositionControl by its own WR_MODE only. -/
def Obligations.OnlyWriteModeEnables : Prop :=
  ∀ (i : Instr) (s t : State) (m : Chan), exec i s = .next t → (t.blk.chan m).mode ≠ (s.blk.chan m).mode →
    (t.blk.chan m).mode ≠ .disabled → ∃ d, i = Instr.wrMode m d

/-- R36, R130: an Overload latch holds through every operation but an accepted CLEAR. -/
def Obligations.OverloadHoldsUntilClear : Prop :=
  ∀ (i : Instr) (s t : State) (m : Chan), exec i s = .next t → (s.blk.chan m).error = .overload →
    (t.blk.chan m).error = .none → i = .wrCtrl 1

/-- R47, R179: a Y fault is never replaced by another; only CLEAR returns it to None. -/
def Obligations.FirstYFaultWins : Prop :=
  ∀ (i : Instr) (s t : State), exec i s = .next t → s.blk.yerr ≠ .none →
    t.blk.yerr = s.blk.yerr ∨ (t.blk.yerr = .none ∧ i = .wrCtrl 1)

/-- R24, R186: outside WR_CTRL, whose CLEAR the Y axis can refuse, the X channel, the overflow count and the sub-rate divider evolve
from themselves and the X parameters alone: nothing the Y channels hold can be seen in them. -/
def Obligations.XDoesNotDependOnY : Prop :=
  ∀ (i : Instr) (s s' t t' : State), (∀ d, i ≠ .wrCtrl d) → s.cfg.x = s'.cfg.x → s.cfg.subrateN = s'.cfg.subrateN →
    s.blk.x = s'.blk.x → s.blk.ovfCnt = s'.blk.ovfCnt → s.blk.tickPhase = s'.blk.tickPhase →
    exec i s = .next t → exec i s' = .next t' →
      t.blk.x = t'.blk.x ∧ t.blk.ovfCnt = t'.blk.ovfCnt ∧ t.blk.tickPhase = t'.blk.tickPhase

/-! ### Invariants of every step -/

/-- R43: Brake exactly when the applied speed is 0, and the braking duty in Brake, hold after reset and are kept by every
operation. -/
def Obligations.EveryStepKeepsTheDriveRule : Prop :=
  (∀ k : Config, k.wf = true → (State.resetWith k).DriveOk) ∧ ∀ s t : State, s.DriveOk → step s = .next t → t.DriveOk

/-- R45: the integrals are within their limits after reset, and every step keeps them there. -/
def Obligations.EveryStepKeepsTheIntegralBound : Prop :=
  (∀ k : Config, k.wf = true → (State.resetWith k).IntegralOk) ∧
    ∀ s t : State, s.IntegralOk → step s = .next t → t.IntegralOk

/-- R32, R33, R50: every step keeps the applied speeds within `MAX_SPEED`, the duties within 100 and the divider below
`SUBRATE_N`. -/
def Obligations.EveryStepKeepsTheOutputRanges : Prop :=
  ∀ s t : State, s.RangesOk → step s = .next t → t.RangesOk

/-- R129, R137, R147, R171: every step keeps what the latches promise: a latched channel is Disabled with the count that
tripped, LrMismatch holds both Y channels Disabled, and `yerr` agrees with the channels' latches. -/
def Obligations.EveryStepKeepsTheLatches : Prop :=
  ∀ s t : State, s.LatchOk → step s = .next t → t.LatchOk

/-- R43, R45, R189: the machine is in a safe state right after reset, under every valid configuration. -/
def Obligations.ResetIsSafe : Prop := ∀ k : Config, k.wf = true → (State.resetWith k).Safe

/-- R63 with the invariants above: however many operations of whatever stream a machine runs from a safe state, it is in a safe
state after each. -/
def Obligations.EveryRunStaysSafe : Prop :=
  ∀ (n : Nat) (s t : State), s.Safe → Host.Core.run Sys2Proof.core n s = .next t → t.Safe
end

