-- ==== Sys2Proof/Laws/Arith.lean ====
section
/-! SUPPORT. The arithmetic of spec/00_scope.md R13: ranges, and what reading a narrowed value back gives. -/

namespace Sys2Proof.Machine

theorem sat32_eq (v : Int) : sat32 v = min (max v (-2147483648)) 2147483647 := rfl

theorem sat32_range (v : Int) : -2147483648 ≤ sat32 v ∧ sat32 v ≤ 2147483647 := by unfold sat32; omega

theorem sat32_of_range {v : Int} (h : -2147483648 ≤ v) (h' : v ≤ 2147483647) : sat32 v = v := by unfold sat32; omega

theorem clamp_range {v lo hi : Int} (h : lo ≤ hi) : lo ≤ clamp v lo hi ∧ clamp v lo hi ≤ hi := by unfold clamp; omega

theorem abs_natCast_succ (n : Nat) : |(n : Int) + 1| = n + 1 := abs_of_nonneg (by omega)

/-- Division truncated toward zero is the library's `Int.tdiv` (R13, R113). -/
theorem tdiv_eq (a b : Int) : tdiv a b = Int.tdiv a b := by
  unfold tdiv
  cases a with
  | ofNat m => cases b with
    | ofNat n =>
      rcases Nat.eq_zero_or_pos m with hm | hm <;> rcases Nat.eq_zero_or_pos n with hn | hn <;> simp_all [Int.sign, Int.tdiv]
      cases m <;> cases n <;> simp_all
    | negSucc n =>
      cases m <;> simp [Int.sign, Int.tdiv, abs_natCast_succ]
  | negSucc m => cases b with
    | ofNat n => cases n <;> simp [Int.sign, Int.tdiv, abs_natCast_succ]
    | negSucc n => simp [Int.sign, Int.tdiv]

/-- Reading back a stored i32 value (R13). -/
theorem s32_u32 {v : Int} (h : -2147483648 ≤ v) (h' : v ≤ 2147483647) : s32 (u32 v) = v := by
  unfold s32 u32
  rw [BitVec.toInt_ofInt]
  simp only [Int.bmod, Nat.reducePow, Nat.cast_ofNat]
  split <;> omega

@[simp] theorem s32_u32_sat32 (v : Int) : s32 (u32 (sat32 v)) = sat32 v := s32_u32 (sat32_range v).1 (sat32_range v).2

/-- A word read as two's complement and stored again is itself (R13, R145). -/
@[simp] theorem u32_s32 (w : Word) : u32 (s32 w) = w := by simp [u32, s32]

theorem s32_range (w : Word) : -2147483648 ≤ s32 w ∧ s32 w ≤ 2147483647 := by
  unfold s32
  have := w.toInt_lt
  have := w.le_toInt
  omega

@[simp] theorem s32_zero : s32 0 = 0 := by decide

@[simp] theorem u32_zero : u32 0 = 0 := by decide

/-- Reading back a stored u32 value (R13). -/
theorem toNat_u32 {v : Int} (h : 0 ≤ v) (h' : v ≤ 4294967295) : ((u32 v).toNat : Int) = v := by
  unfold u32
  rw [BitVec.toNat_ofInt]
  omega

end Sys2Proof.Machine
end

