-- ==== Sys2Proof/Laws/Encoding.lean ====
section
/-! SUPPORT. What the fields of an assembled word are, and what the decoder makes of it (spec/30_encoding.md R70 to R77). -/

namespace Sys2Proof

theorem field_eq_of_getLsbD {w : Word} {lo len : Nat} {v : BitVec len}
    (h : ∀ i, i < len → w.getLsbD (lo + i) = v.getLsbD i) : field w lo len = v := by
  apply BitVec.eq_of_getLsbD_eq
  intro i hi
  simp only [field, BitVec.getLsbD_extractLsb', hi, decide_true, Bool.true_and]
  exact h i hi

/-- A field as a number: `w[lo+len-1 : lo]` (R12). -/
theorem toNat_field (w : Word) (lo len : Nat) : (field w lo len).toNat = w.toNat / 2 ^ lo % 2 ^ len := by
  simp [field, Nat.shiftRight_eq_div_pow]

/-- A field is a value when its number is. -/
theorem field_eq_iff (w : Word) (lo len : Nat) (v : BitVec len) :
    field w lo len = v ↔ w.toNat / 2 ^ lo % 2 ^ len = v.toNat := by
  rw [← BitVec.toNat_inj, toNat_field]

theorem edgeWord_toNat (m : BitVec 2) (b : Bool) (cap : Capture) :
    (edgeWord m b cap).toNat = 0x10000000 + cap.toNat * 2 ^ 12 + b.toNat * 2 ^ 3 + m.toNat := by
  have hc := cap.isLt
  have hm := m.isLt
  have hb : b.toNat < 2 := Bool.toNat_lt b
  simp only [edgeWord, BitVec.toNat_append, BitVec.toNat_ofBool, BitVec.toNat_ofNat]
  rw [← Nat.shiftLeft_add_eq_or_of_lt, ← Nat.shiftLeft_add_eq_or_of_lt, ← Nat.shiftLeft_add_eq_or_of_lt,
    ← Nat.shiftLeft_add_eq_or_of_lt, ← Nat.shiftLeft_add_eq_or_of_lt] <;>
  first
    | (simp only [Nat.shiftLeft_eq]; omega)
    | omega

theorem tickWord_toNat (sw : BitVec 6) : (tickWord sw).toNat = 0x30000000 + sw.toNat := by
  have h := sw.isLt
  simp only [tickWord, BitVec.toNat_append, BitVec.toNat_ofNat]
  rw [← Nat.shiftLeft_add_eq_or_of_lt (by omega), ← Nat.shiftLeft_add_eq_or_of_lt (by omega)]
  simp only [Nat.shiftLeft_eq]

theorem writeWord_toNat (a : Addr) : (writeWord a).toNat = 0x40000000 + a.toNat := by
  have h := a.isLt
  simp only [writeWord, BitVec.toNat_append, BitVec.toNat_ofNat]
  rw [← Nat.shiftLeft_add_eq_or_of_lt (by omega), ← Nat.shiftLeft_add_eq_or_of_lt (by omega)]
  simp only [Nat.shiftLeft_eq]

theorem readWord_toNat (a : Addr) : (readWord a).toNat = 0x50000000 + a.toNat := by
  have h := a.isLt
  simp only [readWord, BitVec.toNat_append, BitVec.toNat_ofNat]
  rw [← Nat.shiftLeft_add_eq_or_of_lt (by omega), ← Nat.shiftLeft_add_eq_or_of_lt (by omega)]
  simp only [Nat.shiftLeft_eq]

theorem chanOfCode_chanCode (m : Chan) : chanOfCode (chanCode m) = some m := by cases m <;> rfl

theorem chanOfCode_eq_some {v : BitVec 2} {m : Chan} (h : chanOfCode v = some m) : v = chanCode m := by
  unfold chanOfCode at h
  split at h
  · cases h; assumption
  · split at h
    · cases h; assumption
    · split at h
      · cases h; assumption
      · cases h

theorem decodeWord_edgeWord (m : Chan) (b : Bool) (cap : Capture) :
    decodeWord (edgeWord (chanCode m) b cap) = .edge m b cap := by
  have hn := edgeWord_toNat (chanCode m) b cap
  have hc := cap.isLt
  have hm := (chanCode m).isLt
  have hb : b.toNat < 2 := Bool.toNat_lt b
  have hk : field (edgeWord (chanCode m) b cap) 28 4 = 0x1 := (field_eq_iff _ _ _ _).2 (by rw [hn]; simp only [BitVec.ofNat_eq_ofNat, BitVec.toNat_ofNat]; omega)
  have hz : field (edgeWord (chanCode m) b cap) 4 8 = 0 := (field_eq_iff _ _ _ _).2 (by rw [hn]; simp only [BitVec.ofNat_eq_ofNat, BitVec.toNat_ofNat]; omega)
  have hz' : field (edgeWord (chanCode m) b cap) 2 1 = 0 := (field_eq_iff _ _ _ _).2 (by rw [hn]; simp only [BitVec.ofNat_eq_ofNat, BitVec.toNat_ofNat]; omega)
  have hch : field (edgeWord (chanCode m) b cap) 0 2 = chanCode m := (field_eq_iff _ _ _ _).2 (by rw [hn]; omega)
  have hcap : field (edgeWord (chanCode m) b cap) 12 16 = cap := (field_eq_iff _ _ _ _).2 (by rw [hn]; omega)
  have hb3 : (edgeWord (chanCode m) b cap).getLsbD 3 = b := by
    simp only [BitVec.getLsbD, Nat.testBit_eq_decide_div_mod_eq, hn]
    cases b <;> simp [Bool.toNat] <;> omega
  simp only [decodeWord, hk, decodeEdge, hz, hz', hch, hcap, hb3, chanOfCode_chanCode, and_self, if_true]

theorem decodeWord_tickWord (sw : BitVec 6) : decodeWord (tickWord sw) = .tick sw := by
  have hn := tickWord_toNat sw
  have h := sw.isLt
  have hk : field (tickWord sw) 28 4 = 0x3 := (field_eq_iff _ _ _ _).2 (by rw [hn]; simp only [BitVec.ofNat_eq_ofNat, BitVec.toNat_ofNat]; omega)
  have hz : field (tickWord sw) 6 22 = 0 := (field_eq_iff _ _ _ _).2 (by rw [hn]; simp only [BitVec.ofNat_eq_ofNat, BitVec.toNat_ofNat]; omega)
  have hs : field (tickWord sw) 0 6 = sw := (field_eq_iff _ _ _ _).2 (by rw [hn]; omega)
  simp [decodeWord, hk, hz, hs]

theorem decodeWord_writeWord (a : Addr) : decodeWord (writeWord a) = .write a := by
  have hn := writeWord_toNat a
  have h := a.isLt
  have hk : field (writeWord a) 28 4 = 0x4 := (field_eq_iff _ _ _ _).2 (by rw [hn]; simp only [BitVec.ofNat_eq_ofNat, BitVec.toNat_ofNat]; omega)
  have hz : field (writeWord a) 12 16 = 0 := (field_eq_iff _ _ _ _).2 (by rw [hn]; simp only [BitVec.ofNat_eq_ofNat, BitVec.toNat_ofNat]; omega)
  have hs : field (writeWord a) 0 12 = a := (field_eq_iff _ _ _ _).2 (by rw [hn]; omega)
  simp [decodeWord, hk, hz, hs]

theorem decodeWord_readWord (a : Addr) : decodeWord (readWord a) = .read a := by
  have hn := readWord_toNat a
  have h := a.isLt
  have hk : field (readWord a) 28 4 = 0x5 := (field_eq_iff _ _ _ _).2 (by rw [hn]; simp only [BitVec.ofNat_eq_ofNat, BitVec.toNat_ofNat]; omega)
  have hz : field (readWord a) 12 16 = 0 := (field_eq_iff _ _ _ _).2 (by rw [hn]; simp only [BitVec.ofNat_eq_ofNat, BitVec.toNat_ofNat]; omega)
  have hs : field (readWord a) 0 12 = a := (field_eq_iff _ _ _ _).2 (by rw [hn]; omega)
  simp [decodeWord, hk, hz, hs]

/-- What the decoder reads from a word, in the numbers of its fields: each result names the whole word (R77). -/
theorem decodeWord_spec (w : Word) :
    (∃ m b cap, decodeWord w = .edge m b cap ∧ w = edgeWord (chanCode m) b cap) ∨
      (decodeWord w = .ovf ∧ w = 0x20000000#32) ∨
      (∃ sw, decodeWord w = .tick sw ∧ w = tickWord sw) ∨
      (∃ a, decodeWord w = .write a ∧ w = writeWord a) ∨
      (∃ a, decodeWord w = .read a ∧ w = readWord a) ∨
      ∃ why, decodeWord w = .refuse why ∧ why ≠ .missingData := by
  have hw := w.isLt
  unfold decodeWord
  split
  next hk =>
    unfold decodeEdge
    split
    next hz =>
      cases hm : chanOfCode (field w 0 2) with
      | none => simp
      | some m =>
        left
        refine ⟨m, _, _, rfl, BitVec.eq_of_toNat_eq ?_⟩
        rw [edgeWord_toNat, ← chanOfCode_eq_some hm, toNat_field, toNat_field]
        have h1 := (field_eq_iff _ _ _ _).1 hk
        have h2 := (field_eq_iff _ _ _ _).1 hz.1
        have h3 := (field_eq_iff _ _ _ _).1 hz.2
        simp only [BitVec.ofNat_eq_ofNat, BitVec.toNat_ofNat] at h1 h2 h3
        have h4 : (w.getLsbD 3).toNat = w.toNat / 2 ^ 3 % 2 := by
          simp only [BitVec.getLsbD, Nat.testBit_eq_decide_div_mod_eq]
          rcases Nat.mod_two_eq_zero_or_one (w.toNat / 2 ^ 3) with h | h <;> rw [h] <;> rfl
        omega
    · simp
  · split
    next hk =>
      split
      next hz =>
        right; left
        refine ⟨rfl, BitVec.eq_of_toNat_eq ?_⟩
        have h1 := (field_eq_iff _ _ _ _).1 hk
        have h2 := (field_eq_iff _ _ _ _).1 hz
        simp only [BitVec.ofNat_eq_ofNat, BitVec.toNat_ofNat] at h1 h2 ⊢
        omega
      · simp
    · split
      next hk =>
        split
        next hz =>
          right; right; left
          refine ⟨_, rfl, BitVec.eq_of_toNat_eq ?_⟩
          have h1 := (field_eq_iff _ _ _ _).1 hk
          have h2 := (field_eq_iff _ _ _ _).1 hz
          rw [tickWord_toNat, toNat_field]
          simp only [BitVec.ofNat_eq_ofNat, BitVec.toNat_ofNat] at h1 h2
          omega
        · simp
      · split
        next hk =>
          split
          next hz =>
            right; right; right; left
            refine ⟨_, rfl, BitVec.eq_of_toNat_eq ?_⟩
            have h1 := (field_eq_iff _ _ _ _).1 hk
            have h2 := (field_eq_iff _ _ _ _).1 hz
            rw [writeWord_toNat, toNat_field]
            simp only [BitVec.ofNat_eq_ofNat, BitVec.toNat_ofNat] at h1 h2
            omega
          · simp
        · split
          next hk =>
            split
            next hz =>
              right; right; right; right; left
              refine ⟨_, rfl, BitVec.eq_of_toNat_eq ?_⟩
              have h1 := (field_eq_iff _ _ _ _).1 hk
              have h2 := (field_eq_iff _ _ _ _).1 hz
              rw [readWord_toNat, toNat_field]
              simp only [BitVec.ofNat_eq_ofNat, BitVec.toNat_ofNat] at h1 h2
              omega
            · simp
          · simp

/-- A row of the WRITE map spells the word of its address (R78). -/
theorem writeMap_spells : ∀ p ∈ writeMap, ∀ d, encode (p.2 d) = [writeWord (BitVec.ofNat 12 p.1), d] ∧ p.1 < 4096 := by
  simp only [writeMap, List.forall_mem_cons, List.not_mem_nil, false_imp_iff, implies_true, and_true]
  refine ⟨?_, ?_, ?_, ?_, ?_, ?_, ?_, ?_, ?_⟩ <;> exact fun d => ⟨rfl, by decide⟩

/-- A row of the READ map spells the word of its address (R78). -/
theorem readMap_spells : ∀ p ∈ readMap, encode p.2 = [readWord (BitVec.ofNat 12 p.1)] ∧ p.1 < 4096 := by decide

theorem mem_of_lookup {α : Type} {l : List (Nat × α)} {n : Nat} {v : α} (h : l.lookup n = some v) : (n, v) ∈ l := by
  induction l with
  | nil => cases h
  | cons p l ih =>
    obtain ⟨k, u⟩ := p
    rw [List.lookup_cons] at h
    split at h
    · rename_i hk
      cases h
      simp only [beq_iff_eq] at hk
      simp [hk]
    · exact List.mem_cons_of_mem _ (ih h)

/-- A READ's operation spells the READ's word, and is unmapped only where the map has no row (R80). -/
theorem readOperation_spec (a : Addr) : encodeOperation (readOperation a) = [readWord a] ∧ (readOperation a).wf = true := by
  unfold readOperation
  split
  next i h =>
    have h' := (readMap_spells _ (mem_of_lookup h)).1
    simpa [encodeOperation, Operation.wf] using h'
  next h => simp [encodeOperation, Operation.wf, h]

/-- The same of a WRITE (R80). -/
theorem writeOperation_spec (a : Addr) (d : Word) :
    encodeOperation (writeOperation a d) = [writeWord a, d] ∧ (writeOperation a d).wf = true := by
  unfold writeOperation
  split
  next row h =>
    have h' := (writeMap_spells _ (mem_of_lookup h) d).1
    simpa [encodeOperation, Operation.wf] using h'
  next h => simp [encodeOperation, Operation.wf, h]

end Sys2Proof
end

