-- ==== Sys2Proof/Laws/State.lean ====
section
/-! SUPPORT. One lemma per field per record update, true by rfl, so that no later proof unfolds an update; and what reading a
channel gives after writing one. -/

namespace Sys2Proof.Machine

/-! brakeOutputs -/

@[simp] theorem brakeOutputs_pos (k : ChannelConfig) (c : Channel) : (brakeOutputs k c).pos = c.pos := rfl
@[simp] theorem brakeOutputs_cmd (k : ChannelConfig) (c : Channel) : (brakeOutputs k c).cmd = c.cmd := rfl
@[simp] theorem brakeOutputs_err (k : ChannelConfig) (c : Channel) : (brakeOutputs k c).err = c.err := rfl
@[simp] theorem brakeOutputs_efferr (k : ChannelConfig) (c : Channel) : (brakeOutputs k c).efferr = c.efferr := rfl
@[simp] theorem brakeOutputs_direction (k : ChannelConfig) (c : Channel) : (brakeOutputs k c).direction = .brake := rfl
@[simp] theorem brakeOutputs_qdir (k : ChannelConfig) (c : Channel) : (brakeOutputs k c).qdir = c.qdir := rfl
@[simp] theorem brakeOutputs_setSpeed (k : ChannelConfig) (c : Channel) : (brakeOutputs k c).setSpeed = 0 := rfl
@[simp] theorem brakeOutputs_pwmDuty (k : ChannelConfig) (c : Channel) : (brakeOutputs k c).pwmDuty = BitVec.ofNat 8 k.dutyBrake := rfl
@[simp] theorem brakeOutputs_mode (k : ChannelConfig) (c : Channel) : (brakeOutputs k c).mode = c.mode := rfl
@[simp] theorem brakeOutputs_homeSw (k : ChannelConfig) (c : Channel) : (brakeOutputs k c).homeSw = c.homeSw := rfl
@[simp] theorem brakeOutputs_limitSw (k : ChannelConfig) (c : Channel) : (brakeOutputs k c).limitSw = c.limitSw := rfl
@[simp] theorem brakeOutputs_error (k : ChannelConfig) (c : Channel) : (brakeOutputs k c).error = c.error := rfl
@[simp] theorem brakeOutputs_integ (k : ChannelConfig) (c : Channel) : (brakeOutputs k c).integ = c.integ := rfl
@[simp] theorem brakeOutputs_speed (k : ChannelConfig) (c : Channel) : (brakeOutputs k c).speed = c.speed := rfl
@[simp] theorem brakeOutputs_prev (k : ChannelConfig) (c : Channel) : (brakeOutputs k c).prev = c.prev := rfl
@[simp] theorem brakeOutputs_strike (k : ChannelConfig) (c : Channel) : (brakeOutputs k c).strike = c.strike := rfl
@[simp] theorem brakeOutputs_lastDir (k : ChannelConfig) (c : Channel) : (brakeOutputs k c).lastDir = c.lastDir := rfl
@[simp] theorem brakeOutputs_edge1 (k : ChannelConfig) (c : Channel) : (brakeOutputs k c).edge1 = c.edge1 := rfl
@[simp] theorem brakeOutputs_edge2 (k : ChannelConfig) (c : Channel) : (brakeOutputs k c).edge2 = c.edge2 := rfl

/-! latchChannel -/

@[simp] theorem latchChannel_pos (k : ChannelConfig) (c : Channel) : (latchChannel k c).pos = c.pos := rfl
@[simp] theorem latchChannel_cmd (k : ChannelConfig) (c : Channel) : (latchChannel k c).cmd = c.cmd := rfl
@[simp] theorem latchChannel_err (k : ChannelConfig) (c : Channel) : (latchChannel k c).err = c.err := rfl
@[simp] theorem latchChannel_efferr (k : ChannelConfig) (c : Channel) : (latchChannel k c).efferr = c.efferr := rfl
@[simp] theorem latchChannel_direction (k : ChannelConfig) (c : Channel) : (latchChannel k c).direction = .brake := rfl
@[simp] theorem latchChannel_qdir (k : ChannelConfig) (c : Channel) : (latchChannel k c).qdir = c.qdir := rfl
@[simp] theorem latchChannel_setSpeed (k : ChannelConfig) (c : Channel) : (latchChannel k c).setSpeed = 0 := rfl
@[simp] theorem latchChannel_pwmDuty (k : ChannelConfig) (c : Channel) : (latchChannel k c).pwmDuty = BitVec.ofNat 8 k.dutyBrake := rfl
@[simp] theorem latchChannel_mode (k : ChannelConfig) (c : Channel) : (latchChannel k c).mode = .disabled := rfl
@[simp] theorem latchChannel_homeSw (k : ChannelConfig) (c : Channel) : (latchChannel k c).homeSw = c.homeSw := rfl
@[simp] theorem latchChannel_limitSw (k : ChannelConfig) (c : Channel) : (latchChannel k c).limitSw = c.limitSw := rfl
@[simp] theorem latchChannel_error (k : ChannelConfig) (c : Channel) : (latchChannel k c).error = .overload := rfl
@[simp] theorem latchChannel_integ (k : ChannelConfig) (c : Channel) : (latchChannel k c).integ = c.integ := rfl
@[simp] theorem latchChannel_speed (k : ChannelConfig) (c : Channel) : (latchChannel k c).speed = c.speed := rfl
@[simp] theorem latchChannel_prev (k : ChannelConfig) (c : Channel) : (latchChannel k c).prev = c.prev := rfl
@[simp] theorem latchChannel_strike (k : ChannelConfig) (c : Channel) : (latchChannel k c).strike = c.strike := rfl
@[simp] theorem latchChannel_lastDir (k : ChannelConfig) (c : Channel) : (latchChannel k c).lastDir = c.lastDir := rfl
@[simp] theorem latchChannel_edge1 (k : ChannelConfig) (c : Channel) : (latchChannel k c).edge1 = c.edge1 := rfl
@[simp] theorem latchChannel_edge2 (k : ChannelConfig) (c : Channel) : (latchChannel k c).edge2 = c.edge2 := rfl

/-! clearChannel -/

@[simp] theorem clearChannel_pos (c : Channel) : (clearChannel c).pos = c.pos := rfl
@[simp] theorem clearChannel_cmd (c : Channel) : (clearChannel c).cmd = c.cmd := rfl
@[simp] theorem clearChannel_err (c : Channel) : (clearChannel c).err = c.err := rfl
@[simp] theorem clearChannel_efferr (c : Channel) : (clearChannel c).efferr = c.efferr := rfl
@[simp] theorem clearChannel_direction (c : Channel) : (clearChannel c).direction = c.direction := rfl
@[simp] theorem clearChannel_qdir (c : Channel) : (clearChannel c).qdir = c.qdir := rfl
@[simp] theorem clearChannel_setSpeed (c : Channel) : (clearChannel c).setSpeed = c.setSpeed := rfl
@[simp] theorem clearChannel_pwmDuty (c : Channel) : (clearChannel c).pwmDuty = c.pwmDuty := rfl
@[simp] theorem clearChannel_mode (c : Channel) : (clearChannel c).mode = c.mode := rfl
@[simp] theorem clearChannel_homeSw (c : Channel) : (clearChannel c).homeSw = c.homeSw := rfl
@[simp] theorem clearChannel_limitSw (c : Channel) : (clearChannel c).limitSw = c.limitSw := rfl
@[simp] theorem clearChannel_error (c : Channel) : (clearChannel c).error = .none := rfl
@[simp] theorem clearChannel_integ (c : Channel) : (clearChannel c).integ = c.integ := rfl
@[simp] theorem clearChannel_speed (c : Channel) : (clearChannel c).speed = c.speed := rfl
@[simp] theorem clearChannel_prev (c : Channel) : (clearChannel c).prev = c.prev := rfl
@[simp] theorem clearChannel_strike (c : Channel) : (clearChannel c).strike = 0 := rfl
@[simp] theorem clearChannel_lastDir (c : Channel) : (clearChannel c).lastDir = c.lastDir := rfl
@[simp] theorem clearChannel_edge1 (c : Channel) : (clearChannel c).edge1 = c.edge1 := rfl
@[simp] theorem clearChannel_edge2 (c : Channel) : (clearChannel c).edge2 = c.edge2 := rfl

/-! estimate -/

@[simp] theorem estimate_pos (n : Nat) (k : ChannelConfig) (c : Channel) : (estimate n k c).pos = c.pos := rfl
@[simp] theorem estimate_cmd (n : Nat) (k : ChannelConfig) (c : Channel) : (estimate n k c).cmd = c.cmd := rfl
@[simp] theorem estimate_err (n : Nat) (k : ChannelConfig) (c : Channel) : (estimate n k c).err = c.err := rfl
@[simp] theorem estimate_efferr (n : Nat) (k : ChannelConfig) (c : Channel) : (estimate n k c).efferr = c.efferr := rfl
@[simp] theorem estimate_direction (n : Nat) (k : ChannelConfig) (c : Channel) : (estimate n k c).direction = c.direction := rfl
@[simp] theorem estimate_qdir (n : Nat) (k : ChannelConfig) (c : Channel) : (estimate n k c).qdir = c.qdir := rfl
@[simp] theorem estimate_setSpeed (n : Nat) (k : ChannelConfig) (c : Channel) : (estimate n k c).setSpeed = c.setSpeed := rfl
@[simp] theorem estimate_pwmDuty (n : Nat) (k : ChannelConfig) (c : Channel) : (estimate n k c).pwmDuty = c.pwmDuty := rfl
@[simp] theorem estimate_mode (n : Nat) (k : ChannelConfig) (c : Channel) : (estimate n k c).mode = c.mode := rfl
@[simp] theorem estimate_homeSw (n : Nat) (k : ChannelConfig) (c : Channel) : (estimate n k c).homeSw = c.homeSw := rfl
@[simp] theorem estimate_limitSw (n : Nat) (k : ChannelConfig) (c : Channel) : (estimate n k c).limitSw = c.limitSw := rfl
@[simp] theorem estimate_error (n : Nat) (k : ChannelConfig) (c : Channel) : (estimate n k c).error = c.error := rfl
@[simp] theorem estimate_integ (n : Nat) (k : ChannelConfig) (c : Channel) : (estimate n k c).integ = c.integ := rfl
@[simp] theorem estimate_speed (n : Nat) (k : ChannelConfig) (c : Channel) : (estimate n k c).speed = u32 (speedOf n k (s32 c.pos - s32 c.prev).natAbs) := rfl
@[simp] theorem estimate_prev (n : Nat) (k : ChannelConfig) (c : Channel) : (estimate n k c).prev = c.pos := rfl
@[simp] theorem estimate_strike (n : Nat) (k : ChannelConfig) (c : Channel) : (estimate n k c).strike = c.strike := rfl
@[simp] theorem estimate_lastDir (n : Nat) (k : ChannelConfig) (c : Channel) : (estimate n k c).lastDir = c.lastDir := rfl
@[simp] theorem estimate_edge1 (n : Nat) (k : ChannelConfig) (c : Channel) : (estimate n k c).edge1 = c.edge1 := rfl
@[simp] theorem estimate_edge2 (n : Nat) (k : ChannelConfig) (c : Channel) : (estimate n k c).edge2 = c.edge2 := rfl

/-! commitOutput -/

@[simp] theorem commitOutput_pos (k : ChannelConfig) (w : Direction) (v : Nat) (c : Channel) : (commitOutput k w v c).pos = c.pos := rfl
@[simp] theorem commitOutput_cmd (k : ChannelConfig) (w : Direction) (v : Nat) (c : Channel) : (commitOutput k w v c).cmd = c.cmd := rfl
@[simp] theorem commitOutput_err (k : ChannelConfig) (w : Direction) (v : Nat) (c : Channel) : (commitOutput k w v c).err = c.err := rfl
@[simp] theorem commitOutput_efferr (k : ChannelConfig) (w : Direction) (v : Nat) (c : Channel) : (commitOutput k w v c).efferr = c.efferr := rfl
@[simp] theorem commitOutput_direction (k : ChannelConfig) (w : Direction) (v : Nat) (c : Channel) : (commitOutput k w v c).direction = w := rfl
@[simp] theorem commitOutput_qdir (k : ChannelConfig) (w : Direction) (v : Nat) (c : Channel) : (commitOutput k w v c).qdir = c.qdir := rfl
@[simp] theorem commitOutput_setSpeed (k : ChannelConfig) (w : Direction) (v : Nat) (c : Channel) : (commitOutput k w v c).setSpeed = BitVec.ofNat 8 v := rfl
@[simp] theorem commitOutput_pwmDuty (k : ChannelConfig) (w : Direction) (v : Nat) (c : Channel) : (commitOutput k w v c).pwmDuty = BitVec.ofInt 8 (duty k w v) := rfl
@[simp] theorem commitOutput_mode (k : ChannelConfig) (w : Direction) (v : Nat) (c : Channel) : (commitOutput k w v c).mode = c.mode := rfl
@[simp] theorem commitOutput_homeSw (k : ChannelConfig) (w : Direction) (v : Nat) (c : Channel) : (commitOutput k w v c).homeSw = c.homeSw := rfl
@[simp] theorem commitOutput_limitSw (k : ChannelConfig) (w : Direction) (v : Nat) (c : Channel) : (commitOutput k w v c).limitSw = c.limitSw := rfl
@[simp] theorem commitOutput_error (k : ChannelConfig) (w : Direction) (v : Nat) (c : Channel) : (commitOutput k w v c).error = c.error := rfl
@[simp] theorem commitOutput_integ (k : ChannelConfig) (w : Direction) (v : Nat) (c : Channel) : (commitOutput k w v c).integ = c.integ := rfl
@[simp] theorem commitOutput_speed (k : ChannelConfig) (w : Direction) (v : Nat) (c : Channel) : (commitOutput k w v c).speed = c.speed := rfl
@[simp] theorem commitOutput_prev (k : ChannelConfig) (w : Direction) (v : Nat) (c : Channel) : (commitOutput k w v c).prev = c.prev := rfl
@[simp] theorem commitOutput_strike (k : ChannelConfig) (w : Direction) (v : Nat) (c : Channel) : (commitOutput k w v c).strike = c.strike := rfl
@[simp] theorem commitOutput_lastDir (k : ChannelConfig) (w : Direction) (v : Nat) (c : Channel) : (commitOutput k w v c).lastDir = c.lastDir := rfl
@[simp] theorem commitOutput_edge1 (k : ChannelConfig) (w : Direction) (v : Nat) (c : Channel) : (commitOutput k w v c).edge1 = c.edge1 := rfl
@[simp] theorem commitOutput_edge2 (k : ChannelConfig) (w : Direction) (v : Nat) (c : Channel) : (commitOutput k w v c).edge2 = c.edge2 := rfl

/-! gateExit -/

@[simp] theorem gateExit_pos (k : ChannelConfig) (c : Channel) : (gateExit k c).pos = c.pos := rfl
@[simp] theorem gateExit_cmd (k : ChannelConfig) (c : Channel) : (gateExit k c).cmd = c.cmd := rfl
@[simp] theorem gateExit_err (k : ChannelConfig) (c : Channel) : (gateExit k c).err = c.err := rfl
@[simp] theorem gateExit_efferr (k : ChannelConfig) (c : Channel) : (gateExit k c).efferr = c.efferr := rfl
@[simp] theorem gateExit_direction (k : ChannelConfig) (c : Channel) : (gateExit k c).direction = .brake := rfl
@[simp] theorem gateExit_qdir (k : ChannelConfig) (c : Channel) : (gateExit k c).qdir = c.qdir := rfl
@[simp] theorem gateExit_setSpeed (k : ChannelConfig) (c : Channel) : (gateExit k c).setSpeed = 0 := rfl
@[simp] theorem gateExit_pwmDuty (k : ChannelConfig) (c : Channel) : (gateExit k c).pwmDuty = BitVec.ofNat 8 k.dutyBrake := rfl
@[simp] theorem gateExit_mode (k : ChannelConfig) (c : Channel) : (gateExit k c).mode = c.mode := rfl
@[simp] theorem gateExit_homeSw (k : ChannelConfig) (c : Channel) : (gateExit k c).homeSw = c.homeSw := rfl
@[simp] theorem gateExit_limitSw (k : ChannelConfig) (c : Channel) : (gateExit k c).limitSw = c.limitSw := rfl
@[simp] theorem gateExit_error (k : ChannelConfig) (c : Channel) : (gateExit k c).error = c.error := rfl
@[simp] theorem gateExit_integ (k : ChannelConfig) (c : Channel) : (gateExit k c).integ = 0 := rfl
@[simp] theorem gateExit_speed (k : ChannelConfig) (c : Channel) : (gateExit k c).speed = c.speed := rfl
@[simp] theorem gateExit_prev (k : ChannelConfig) (c : Channel) : (gateExit k c).prev = c.prev := rfl
@[simp] theorem gateExit_strike (k : ChannelConfig) (c : Channel) : (gateExit k c).strike = c.strike := rfl
@[simp] theorem gateExit_lastDir (k : ChannelConfig) (c : Channel) : (gateExit k c).lastDir = c.lastDir := rfl
@[simp] theorem gateExit_edge1 (k : ChannelConfig) (c : Channel) : (gateExit k c).edge1 = c.edge1 := rfl
@[simp] theorem gateExit_edge2 (k : ChannelConfig) (c : Channel) : (gateExit k c).edge2 = c.edge2 := rfl

/-! clampCommand -/

@[simp] theorem clampCommand_pos (k : ChannelConfig) (c : Channel) : (clampCommand k c).pos = c.pos := rfl
@[simp] theorem clampCommand_cmd (k : ChannelConfig) (c : Channel) : (clampCommand k c).cmd = u32 (clamp c.cmd.toNat k.boundary ((k.length : Int) - k.boundary)) := rfl
@[simp] theorem clampCommand_err (k : ChannelConfig) (c : Channel) : (clampCommand k c).err = c.err := rfl
@[simp] theorem clampCommand_efferr (k : ChannelConfig) (c : Channel) : (clampCommand k c).efferr = c.efferr := rfl
@[simp] theorem clampCommand_direction (k : ChannelConfig) (c : Channel) : (clampCommand k c).direction = c.direction := rfl
@[simp] theorem clampCommand_qdir (k : ChannelConfig) (c : Channel) : (clampCommand k c).qdir = c.qdir := rfl
@[simp] theorem clampCommand_setSpeed (k : ChannelConfig) (c : Channel) : (clampCommand k c).setSpeed = c.setSpeed := rfl
@[simp] theorem clampCommand_pwmDuty (k : ChannelConfig) (c : Channel) : (clampCommand k c).pwmDuty = c.pwmDuty := rfl
@[simp] theorem clampCommand_mode (k : ChannelConfig) (c : Channel) : (clampCommand k c).mode = c.mode := rfl
@[simp] theorem clampCommand_homeSw (k : ChannelConfig) (c : Channel) : (clampCommand k c).homeSw = c.homeSw := rfl
@[simp] theorem clampCommand_limitSw (k : ChannelConfig) (c : Channel) : (clampCommand k c).limitSw = c.limitSw := rfl
@[simp] theorem clampCommand_error (k : ChannelConfig) (c : Channel) : (clampCommand k c).error = c.error := rfl
@[simp] theorem clampCommand_integ (k : ChannelConfig) (c : Channel) : (clampCommand k c).integ = c.integ := rfl
@[simp] theorem clampCommand_speed (k : ChannelConfig) (c : Channel) : (clampCommand k c).speed = c.speed := rfl
@[simp] theorem clampCommand_prev (k : ChannelConfig) (c : Channel) : (clampCommand k c).prev = c.prev := rfl
@[simp] theorem clampCommand_strike (k : ChannelConfig) (c : Channel) : (clampCommand k c).strike = c.strike := rfl
@[simp] theorem clampCommand_lastDir (k : ChannelConfig) (c : Channel) : (clampCommand k c).lastDir = c.lastDir := rfl
@[simp] theorem clampCommand_edge1 (k : ChannelConfig) (c : Channel) : (clampCommand k c).edge1 = c.edge1 := rfl
@[simp] theorem clampCommand_edge2 (k : ChannelConfig) (c : Channel) : (clampCommand k c).edge2 = c.edge2 := rfl

/-! recordError -/

@[simp] theorem recordError_pos (cap : Option Int) (c : Channel) : (recordError cap c).pos = c.pos := by simp only [recordError]
@[simp] theorem recordError_cmd (cap : Option Int) (c : Channel) : (recordError cap c).cmd = c.cmd := by simp only [recordError]
@[simp] theorem recordError_err (cap : Option Int) (c : Channel) : (recordError cap c).err = u32 (ownError c) := by simp only [recordError]
@[simp] theorem recordError_efferr (cap : Option Int) (c : Channel) : (recordError cap c).efferr = u32 (effectiveError cap (ownError c)) := by simp only [recordError]
@[simp] theorem recordError_direction (cap : Option Int) (c : Channel) : (recordError cap c).direction = c.direction := by simp only [recordError]
@[simp] theorem recordError_qdir (cap : Option Int) (c : Channel) : (recordError cap c).qdir = c.qdir := by simp only [recordError]
@[simp] theorem recordError_setSpeed (cap : Option Int) (c : Channel) : (recordError cap c).setSpeed = c.setSpeed := by simp only [recordError]
@[simp] theorem recordError_pwmDuty (cap : Option Int) (c : Channel) : (recordError cap c).pwmDuty = c.pwmDuty := by simp only [recordError]
@[simp] theorem recordError_mode (cap : Option Int) (c : Channel) : (recordError cap c).mode = c.mode := by simp only [recordError]
@[simp] theorem recordError_homeSw (cap : Option Int) (c : Channel) : (recordError cap c).homeSw = c.homeSw := by simp only [recordError]
@[simp] theorem recordError_limitSw (cap : Option Int) (c : Channel) : (recordError cap c).limitSw = c.limitSw := by simp only [recordError]
@[simp] theorem recordError_error (cap : Option Int) (c : Channel) : (recordError cap c).error = c.error := by simp only [recordError]
@[simp] theorem recordError_integ (cap : Option Int) (c : Channel) : (recordError cap c).integ = c.integ := by simp only [recordError]
@[simp] theorem recordError_speed (cap : Option Int) (c : Channel) : (recordError cap c).speed = c.speed := by simp only [recordError]
@[simp] theorem recordError_prev (cap : Option Int) (c : Channel) : (recordError cap c).prev = c.prev := by simp only [recordError]
@[simp] theorem recordError_strike (cap : Option Int) (c : Channel) : (recordError cap c).strike = c.strike := by simp only [recordError]
@[simp] theorem recordError_lastDir (cap : Option Int) (c : Channel) : (recordError cap c).lastDir = c.lastDir := by simp only [recordError]
@[simp] theorem recordError_edge1 (cap : Option Int) (c : Channel) : (recordError cap c).edge1 = c.edge1 := by simp only [recordError]
@[simp] theorem recordError_edge2 (cap : Option Int) (c : Channel) : (recordError cap c).edge2 = c.edge2 := by simp only [recordError]

/-! addStrike -/

@[simp] theorem addStrike_pos (c : Channel) : (addStrike c).pos = c.pos := rfl
@[simp] theorem addStrike_cmd (c : Channel) : (addStrike c).cmd = c.cmd := rfl
@[simp] theorem addStrike_err (c : Channel) : (addStrike c).err = c.err := rfl
@[simp] theorem addStrike_efferr (c : Channel) : (addStrike c).efferr = c.efferr := rfl
@[simp] theorem addStrike_direction (c : Channel) : (addStrike c).direction = c.direction := rfl
@[simp] theorem addStrike_qdir (c : Channel) : (addStrike c).qdir = c.qdir := rfl
@[simp] theorem addStrike_setSpeed (c : Channel) : (addStrike c).setSpeed = c.setSpeed := rfl
@[simp] theorem addStrike_pwmDuty (c : Channel) : (addStrike c).pwmDuty = c.pwmDuty := rfl
@[simp] theorem addStrike_mode (c : Channel) : (addStrike c).mode = c.mode := rfl
@[simp] theorem addStrike_homeSw (c : Channel) : (addStrike c).homeSw = c.homeSw := rfl
@[simp] theorem addStrike_limitSw (c : Channel) : (addStrike c).limitSw = c.limitSw := rfl
@[simp] theorem addStrike_error (c : Channel) : (addStrike c).error = c.error := rfl
@[simp] theorem addStrike_integ (c : Channel) : (addStrike c).integ = c.integ := rfl
@[simp] theorem addStrike_speed (c : Channel) : (addStrike c).speed = c.speed := rfl
@[simp] theorem addStrike_prev (c : Channel) : (addStrike c).prev = c.prev := rfl
@[simp] theorem addStrike_strike (c : Channel) : (addStrike c).strike = BitVec.ofNat 16 (min (c.strike.toNat + 1) 65535) := rfl
@[simp] theorem addStrike_lastDir (c : Channel) : (addStrike c).lastDir = c.lastDir := rfl
@[simp] theorem addStrike_edge1 (c : Channel) : (addStrike c).edge1 = c.edge1 := rfl
@[simp] theorem addStrike_edge2 (c : Channel) : (addStrike c).edge2 = c.edge2 := rfl

/-! sampleChannel -/

@[simp] theorem sampleChannel_pos (sw : BitVec 6) (m : Chan) (c : Channel) : (sampleChannel sw m c).pos = c.pos := rfl
@[simp] theorem sampleChannel_cmd (sw : BitVec 6) (m : Chan) (c : Channel) : (sampleChannel sw m c).cmd = c.cmd := rfl
@[simp] theorem sampleChannel_err (sw : BitVec 6) (m : Chan) (c : Channel) : (sampleChannel sw m c).err = c.err := rfl
@[simp] theorem sampleChannel_efferr (sw : BitVec 6) (m : Chan) (c : Channel) : (sampleChannel sw m c).efferr = c.efferr := rfl
@[simp] theorem sampleChannel_direction (sw : BitVec 6) (m : Chan) (c : Channel) : (sampleChannel sw m c).direction = c.direction := rfl
@[simp] theorem sampleChannel_qdir (sw : BitVec 6) (m : Chan) (c : Channel) : (sampleChannel sw m c).qdir = c.qdir := rfl
@[simp] theorem sampleChannel_setSpeed (sw : BitVec 6) (m : Chan) (c : Channel) : (sampleChannel sw m c).setSpeed = c.setSpeed := rfl
@[simp] theorem sampleChannel_pwmDuty (sw : BitVec 6) (m : Chan) (c : Channel) : (sampleChannel sw m c).pwmDuty = c.pwmDuty := rfl
@[simp] theorem sampleChannel_mode (sw : BitVec 6) (m : Chan) (c : Channel) : (sampleChannel sw m c).mode = c.mode := rfl
@[simp] theorem sampleChannel_homeSw (sw : BitVec 6) (m : Chan) (c : Channel) : (sampleChannel sw m c).homeSw = homeLevel sw m := rfl
@[simp] theorem sampleChannel_limitSw (sw : BitVec 6) (m : Chan) (c : Channel) : (sampleChannel sw m c).limitSw = limitLevel sw m := rfl
@[simp] theorem sampleChannel_error (sw : BitVec 6) (m : Chan) (c : Channel) : (sampleChannel sw m c).error = c.error := rfl
@[simp] theorem sampleChannel_integ (sw : BitVec 6) (m : Chan) (c : Channel) : (sampleChannel sw m c).integ = c.integ := rfl
@[simp] theorem sampleChannel_speed (sw : BitVec 6) (m : Chan) (c : Channel) : (sampleChannel sw m c).speed = c.speed := rfl
@[simp] theorem sampleChannel_prev (sw : BitVec 6) (m : Chan) (c : Channel) : (sampleChannel sw m c).prev = c.prev := rfl
@[simp] theorem sampleChannel_strike (sw : BitVec 6) (m : Chan) (c : Channel) : (sampleChannel sw m c).strike = c.strike := rfl
@[simp] theorem sampleChannel_lastDir (sw : BitVec 6) (m : Chan) (c : Channel) : (sampleChannel sw m c).lastDir = c.lastDir := rfl
@[simp] theorem sampleChannel_edge1 (sw : BitVec 6) (m : Chan) (c : Channel) : (sampleChannel sw m c).edge1 = c.edge1 := rfl
@[simp] theorem sampleChannel_edge2 (sw : BitVec 6) (m : Chan) (c : Channel) : (sampleChannel sw m c).edge2 = c.edge2 := rfl

/-! The channels of a block -/

@[simp] theorem chan_x (b : Block) : b.chan .x = b.x := rfl
@[simp] theorem chan_yl (b : Block) : b.chan .yl = b.yl := rfl
@[simp] theorem chan_yr (b : Block) : b.chan .yr = b.yr := rfl
@[simp] theorem cfg_chan_x (k : Config) : k.chan .x = k.x := rfl
@[simp] theorem cfg_chan_yl (k : Config) : k.chan .yl = k.yl := rfl
@[simp] theorem cfg_chan_yr (k : Config) : k.chan .yr = k.yr := rfl
@[simp] theorem setChan_x (b : Block) (c : Channel) : b.setChan .x c = { b with x := c } := rfl
@[simp] theorem setChan_yl (b : Block) (c : Channel) : b.setChan .yl c = { b with yl := c } := rfl
@[simp] theorem setChan_yr (b : Block) (c : Channel) : b.setChan .yr c = { b with yr := c } := rfl
@[simp] theorem setChan_lr (b : Block) (m : Chan) (c : Channel) : (b.setChan m c).lr = b.lr := by cases m <;> rfl
@[simp] theorem setChan_yerr (b : Block) (m : Chan) (c : Channel) : (b.setChan m c).yerr = b.yerr := by cases m <;> rfl
@[simp] theorem setChan_clrRefused (b : Block) (m : Chan) (c : Channel) : (b.setChan m c).clrRefused = b.clrRefused := by cases m <;> rfl
@[simp] theorem setChan_ovfCnt (b : Block) (m : Chan) (c : Channel) : (b.setChan m c).ovfCnt = b.ovfCnt := by cases m <;> rfl
@[simp] theorem setChan_tickPhase (b : Block) (m : Chan) (c : Channel) : (b.setChan m c).tickPhase = b.tickPhase := by cases m <;> rfl
@[simp] theorem setChan_chan_same (b : Block) (m : Chan) (c : Channel) : (b.setChan m c).chan m = c := by cases m <;> rfl
theorem setChan_chan_other (b : Block) (m n : Chan) (c : Channel) (h : n ≠ m) : (b.setChan m c).chan n = b.chan n := by
  cases m <;> cases n <;> first | rfl | exact absurd rfl h
@[simp] theorem setChan_chan_self (b : Block) (m : Chan) : b.setChan m (b.chan m) = b := by cases m <;> rfl
@[simp] theorem setChan_setChan (b : Block) (m : Chan) (c d : Channel) : (b.setChan m c).setChan m d = b.setChan m d := by
  cases m <;> rfl

/-! estimateAll -/

@[simp] theorem estimateAll_x (k : Config) (b : Block) : (estimateAll k b).x = estimate k.subrateN k.x b.x := rfl
@[simp] theorem estimateAll_yl (k : Config) (b : Block) : (estimateAll k b).yl = estimate k.subrateN k.yl b.yl := rfl
@[simp] theorem estimateAll_yr (k : Config) (b : Block) : (estimateAll k b).yr = estimate k.subrateN k.yr b.yr := rfl
@[simp] theorem estimateAll_lr (k : Config) (b : Block) : (estimateAll k b).lr = b.lr := rfl
@[simp] theorem estimateAll_yerr (k : Config) (b : Block) : (estimateAll k b).yerr = b.yerr := rfl
@[simp] theorem estimateAll_clrRefused (k : Config) (b : Block) : (estimateAll k b).clrRefused = b.clrRefused := rfl
@[simp] theorem estimateAll_ovfCnt (k : Config) (b : Block) : (estimateAll k b).ovfCnt = b.ovfCnt := rfl
@[simp] theorem estimateAll_tickPhase (k : Config) (b : Block) : (estimateAll k b).tickPhase = b.tickPhase := rfl

/-! sampleSwitches -/

@[simp] theorem sampleSwitches_x (sw : BitVec 6) (b : Block) : (sampleSwitches sw b).x = sampleChannel sw .x b.x := rfl
@[simp] theorem sampleSwitches_yl (sw : BitVec 6) (b : Block) : (sampleSwitches sw b).yl = sampleChannel sw .yl b.yl := rfl
@[simp] theorem sampleSwitches_yr (sw : BitVec 6) (b : Block) : (sampleSwitches sw b).yr = sampleChannel sw .yr b.yr := rfl
@[simp] theorem sampleSwitches_lr (sw : BitVec 6) (b : Block) : (sampleSwitches sw b).lr = b.lr := rfl
@[simp] theorem sampleSwitches_yerr (sw : BitVec 6) (b : Block) : (sampleSwitches sw b).yerr = b.yerr := rfl
@[simp] theorem sampleSwitches_clrRefused (sw : BitVec 6) (b : Block) : (sampleSwitches sw b).clrRefused = b.clrRefused := rfl
@[simp] theorem sampleSwitches_ovfCnt (sw : BitVec 6) (b : Block) : (sampleSwitches sw b).ovfCnt = b.ovfCnt := rfl
@[simp] theorem sampleSwitches_tickPhase (sw : BitVec 6) (b : Block) : (sampleSwitches sw b).tickPhase = b.tickPhase := rfl

/-! advancePhase -/

@[simp] theorem advancePhase_x (k : Config) (b : Block) : (advancePhase k b).x = b.x := rfl
@[simp] theorem advancePhase_yl (k : Config) (b : Block) : (advancePhase k b).yl = b.yl := rfl
@[simp] theorem advancePhase_yr (k : Config) (b : Block) : (advancePhase k b).yr = b.yr := rfl
@[simp] theorem advancePhase_lr (k : Config) (b : Block) : (advancePhase k b).lr = b.lr := rfl
@[simp] theorem advancePhase_yerr (k : Config) (b : Block) : (advancePhase k b).yerr = b.yerr := rfl
@[simp] theorem advancePhase_clrRefused (k : Config) (b : Block) : (advancePhase k b).clrRefused = b.clrRefused := rfl
@[simp] theorem advancePhase_ovfCnt (k : Config) (b : Block) : (advancePhase k b).ovfCnt = b.ovfCnt := rfl
@[simp] theorem advancePhase_tickPhase (k : Config) (b : Block) : (advancePhase k b).tickPhase = if subrateTick k b then 0 else BitVec.ofNat 10 (b.tickPhase.toNat + 1) := rfl

/-! controlX -/

@[simp] theorem controlX_x (k : Config) (b : Block) : (controlX k b).x = control k.x none b.x := rfl
@[simp] theorem controlX_yl (k : Config) (b : Block) : (controlX k b).yl = b.yl := rfl
@[simp] theorem controlX_yr (k : Config) (b : Block) : (controlX k b).yr = b.yr := rfl
@[simp] theorem controlX_lr (k : Config) (b : Block) : (controlX k b).lr = b.lr := rfl
@[simp] theorem controlX_yerr (k : Config) (b : Block) : (controlX k b).yerr = b.yerr := rfl
@[simp] theorem controlX_clrRefused (k : Config) (b : Block) : (controlX k b).clrRefused = b.clrRefused := rfl
@[simp] theorem controlX_ovfCnt (k : Config) (b : Block) : (controlX k b).ovfCnt = b.ovfCnt := rfl
@[simp] theorem controlX_tickPhase (k : Config) (b : Block) : (controlX k b).tickPhase = b.tickPhase := rfl

/-! trackMaster -/

@[simp] theorem trackMaster_x (b : Block) : (trackMaster b).x = b.x := rfl
@[simp] theorem trackMaster_yl (b : Block) : (trackMaster b).yl = b.yl := rfl
@[simp] theorem trackMaster_yr (b : Block) : (trackMaster b).yr = { b.yr with cmd := b.yl.cmd } := rfl
@[simp] theorem trackMaster_lr (b : Block) : (trackMaster b).lr = u32 (divergence b) := rfl
@[simp] theorem trackMaster_yerr (b : Block) : (trackMaster b).yerr = b.yerr := rfl
@[simp] theorem trackMaster_clrRefused (b : Block) : (trackMaster b).clrRefused = b.clrRefused := rfl
@[simp] theorem trackMaster_ovfCnt (b : Block) : (trackMaster b).ovfCnt = b.ovfCnt := rfl
@[simp] theorem trackMaster_tickPhase (b : Block) : (trackMaster b).tickPhase = b.tickPhase := rfl

/-! controlPair -/

@[simp] theorem controlPair_x (k : Config) (b : Block) : (controlPair k b).x = b.x := rfl
@[simp] theorem controlPair_yl (k : Config) (b : Block) : (controlPair k b).yl = control k.yl none b.yl := rfl
@[simp] theorem controlPair_yr (k : Config) (b : Block) : (controlPair k b).yr = control k.yr (some (s32 b.lr)) b.yr := rfl
@[simp] theorem controlPair_lr (k : Config) (b : Block) : (controlPair k b).lr = b.lr := rfl
@[simp] theorem controlPair_yerr (k : Config) (b : Block) : (controlPair k b).yerr = b.yerr := rfl
@[simp] theorem controlPair_clrRefused (k : Config) (b : Block) : (controlPair k b).clrRefused = b.clrRefused := rfl
@[simp] theorem controlPair_ovfCnt (k : Config) (b : Block) : (controlPair k b).ovfCnt = b.ovfCnt := rfl
@[simp] theorem controlPair_tickPhase (k : Config) (b : Block) : (controlPair k b).tickPhase = b.tickPhase := rfl

/-! overflow -/

@[simp] theorem overflow_x (b : Block) : (overflow b).x = b.x := rfl
@[simp] theorem overflow_yl (b : Block) : (overflow b).yl = b.yl := rfl
@[simp] theorem overflow_yr (b : Block) : (overflow b).yr = b.yr := rfl
@[simp] theorem overflow_lr (b : Block) : (overflow b).lr = b.lr := rfl
@[simp] theorem overflow_yerr (b : Block) : (overflow b).yerr = b.yerr := rfl
@[simp] theorem overflow_clrRefused (b : Block) : (overflow b).clrRefused = b.clrRefused := rfl
@[simp] theorem overflow_ovfCnt (b : Block) : (overflow b).ovfCnt = BitVec.ofNat 8 ((b.ovfCnt.toNat + 1) % 256) := rfl
@[simp] theorem overflow_tickPhase (b : Block) : (overflow b).tickPhase = b.tickPhase := rfl

/-! How an operation ends -/

@[simp] theorem finish_eq (s : State) (b : Block) (r : Option Response) : s.finish b r = .next { s with blk := b, resp := r } := rfl
@[simp] theorem finishQuiet_eq (s : State) (b : Block) : s.finishQuiet b = .next { s with blk := b, resp := none } := rfl
@[simp] theorem finishRead_eq (s : State) (w : Word) : s.finishRead w = .next { s with resp := some ⟨.okay, some w⟩ } := rfl
@[simp] theorem finishWrite_eq (s : State) (b : Block) :
    s.finishWrite b = .next { s with blk := b, resp := some ⟨.okay, none⟩ } := rfl
@[simp] theorem busErrorWrite_eq (s : State) : busErrorWrite s = .next { s with resp := some ⟨.err, none⟩ } := rfl
@[simp] theorem busErrorRead_eq (s : State) : busErrorRead s = .next { s with resp := some ⟨.err, some 0⟩ } := rfl

end Sys2Proof.Machine
end

