-- ==== Sys2Proof/Laws/Ops.lean ====
section
/-! SUPPORT. For each shared operation, what it can do, said once: the provers cite these instead of unfolding. -/

namespace Sys2Proof.Machine

/-! ### The rows of one shape -/

theorem exec_edge (m : Chan) (l : Bool) (cap : Capture) (s : State) :
    exec (Instr.edge m l cap) s = .next { s with blk := edge s.cfg m l cap s.blk, resp := none } := by cases m <;> rfl

theorem exec_wrPos (m : Chan) (d : Word) (s : State) : exec (Instr.wrPos m d) s = writePos m d s := by cases m <;> rfl

theorem exec_wrMode (m : Chan) (d : Word) (s : State) : exec (Instr.wrMode m d) s = writeMode m d s := by cases m <;> rfl

theorem exec_rd (m : Chan) (r : Reg) (s : State) :
    exec (Instr.rd m r) s = .next { s with resp := some ⟨.okay, some (regWord (s.blk.chan m) r)⟩ } := by
  cases m <;> cases r <;> rfl

theorem exec_rdGlobal (g : GReg) (s : State) :
    exec (Instr.rdGlobal g) s = .next { s with resp := some ⟨.okay, some (globalWord s.blk g)⟩ } := by cases g <;> rfl

theorem exec_tick (sw : BitVec 6) (s : State) :
    exec (.tick sw) s = .next { s with blk := tick s.cfg sw s.blk, resp := none } := rfl

/-- Every instruction is a row of one of these shapes. -/
theorem Instr.shape (i : Instr) :
    (∃ m l cap, i = Instr.edge m l cap) ∨ i = .ovf ∨ (∃ sw, i = .tick sw) ∨ (∃ m d, i = Instr.wrPos m d) ∨
      (∃ d, i = .wrCmdX d) ∨ (∃ d, i = .wrCmdYl d) ∨ (∃ m d, i = Instr.wrMode m d) ∨ (∃ d, i = .wrCtrl d) ∨
      (∃ m r, i = Instr.rd m r) ∨ ∃ g, i = Instr.rdGlobal g := by
  cases i
  case edgeX l cap => exact .inl ⟨.x, l, cap, rfl⟩
  case edgeYl l cap => exact .inl ⟨.yl, l, cap, rfl⟩
  case edgeYr l cap => exact .inl ⟨.yr, l, cap, rfl⟩
  case ovf => simp
  case tick sw => exact .inr (.inr (.inl ⟨sw, rfl⟩))
  case wrPosX d => exact .inr (.inr (.inr (.inl ⟨.x, d, rfl⟩)))
  case wrPosYl d => exact .inr (.inr (.inr (.inl ⟨.yl, d, rfl⟩)))
  case wrPosYr d => exact .inr (.inr (.inr (.inl ⟨.yr, d, rfl⟩)))
  case wrCmdX d => exact .inr (.inr (.inr (.inr (.inl ⟨d, rfl⟩))))
  case wrCmdYl d => exact .inr (.inr (.inr (.inr (.inr (.inl ⟨d, rfl⟩)))))
  case wrModeX d => exact .inr (.inr (.inr (.inr (.inr (.inr (.inl ⟨.x, d, rfl⟩))))))
  case wrModeYl d => exact .inr (.inr (.inr (.inr (.inr (.inr (.inl ⟨.yl, d, rfl⟩))))))
  case wrModeYr d => exact .inr (.inr (.inr (.inr (.inr (.inr (.inl ⟨.yr, d, rfl⟩))))))
  case wrCtrl d => exact .inr (.inr (.inr (.inr (.inr (.inr (.inr (.inl ⟨d, rfl⟩)))))))
  case rdYstat => exact .inr (.inr (.inr (.inr (.inr (.inr (.inr (.inr (.inr ⟨.ystat, rfl⟩))))))))
  case rdLrerr => exact .inr (.inr (.inr (.inr (.inr (.inr (.inr (.inr (.inr ⟨.lrerr, rfl⟩))))))))
  case rdCtrl => exact .inr (.inr (.inr (.inr (.inr (.inr (.inr (.inr (.inr ⟨.ctrl, rfl⟩))))))))
  case rdOvfcnt => exact .inr (.inr (.inr (.inr (.inr (.inr (.inr (.inr (.inr ⟨.ovfcnt, rfl⟩))))))))
  case rdPhase => exact .inr (.inr (.inr (.inr (.inr (.inr (.inr (.inr (.inr ⟨.phase, rfl⟩))))))))
  all_goals
    refine .inr (.inr (.inr (.inr (.inr (.inr (.inr (.inr (.inl ?_))))))))
    first
      | exact ⟨.x, .pos, rfl⟩ | exact ⟨.yl, .pos, rfl⟩ | exact ⟨.yr, .pos, rfl⟩
      | exact ⟨.x, .cmd, rfl⟩ | exact ⟨.yl, .cmd, rfl⟩ | exact ⟨.yr, .cmd, rfl⟩
      | exact ⟨.x, .err, rfl⟩ | exact ⟨.yl, .err, rfl⟩ | exact ⟨.yr, .err, rfl⟩
      | exact ⟨.x, .efferr, rfl⟩ | exact ⟨.yl, .efferr, rfl⟩ | exact ⟨.yr, .efferr, rfl⟩
      | exact ⟨.x, .mode, rfl⟩ | exact ⟨.yl, .mode, rfl⟩ | exact ⟨.yr, .mode, rfl⟩
      | exact ⟨.x, .status, rfl⟩ | exact ⟨.yl, .status, rfl⟩ | exact ⟨.yr, .status, rfl⟩
      | exact ⟨.x, .drive, rfl⟩ | exact ⟨.yl, .drive, rfl⟩ | exact ⟨.yr, .drive, rfl⟩
      | exact ⟨.x, .integ, rfl⟩ | exact ⟨.yl, .integ, rfl⟩ | exact ⟨.yr, .integ, rfl⟩
      | exact ⟨.x, .speed, rfl⟩ | exact ⟨.yl, .speed, rfl⟩ | exact ⟨.yr, .speed, rfl⟩
      | exact ⟨.x, .prev, rfl⟩ | exact ⟨.yl, .prev, rfl⟩ | exact ⟨.yr, .prev, rfl⟩
      | exact ⟨.x, .strike, rfl⟩ | exact ⟨.yl, .strike, rfl⟩ | exact ⟨.yr, .strike, rfl⟩
      | exact ⟨.x, .edge1, rfl⟩ | exact ⟨.yl, .edge1, rfl⟩ | exact ⟨.yr, .edge1, rfl⟩
      | exact ⟨.x, .edge2, rfl⟩ | exact ⟨.yl, .edge2, rfl⟩ | exact ⟨.yr, .edge2, rfl⟩
      | exact ⟨.x, .period, rfl⟩ | exact ⟨.yl, .period, rfl⟩ | exact ⟨.yr, .period, rfl⟩

/-! ### EDGE -/

theorem countEdge_fields (k : ChannelConfig) (l : Bool) (c : Channel) :
    countEdge k l c = { c with pos := (countEdge k l c).pos, qdir := (countEdge k l c).qdir } := by
  unfold countEdge; split <;> rfl

theorem stampEdge_fields (k : ChannelConfig) (cap : Capture) (ovf : BitVec 8) (c : Channel) :
    stampEdge k cap ovf c = { c with edge1 := (stampEdge k cap ovf c).edge1, edge2 := (stampEdge k cap ovf c).edge2 } := by
  unfold stampEdge; split <;> rfl

/-- The whole effect of an EDGE on its channel (R89 to R92). -/
theorem edge_chan (k : Config) (m : Chan) (l : Bool) (cap : Capture) (b : Block) :
    (edge k m l cap b).chan m = { b.chan m with
      pos := u32 (if l = (k.chan m).qdBHighFwd then min (s32 (b.chan m).pos + 1) 2147483647
        else max (s32 (b.chan m).pos - 1) (-2147483648))
      qdir := if l = (k.chan m).qdBHighFwd then .forward else .reverse
      edge1 := if (k.chan m).tsEnable then (b.chan m).edge2 else (b.chan m).edge1
      edge2 := if (k.chan m).tsEnable then ⟨cap, b.ovfCnt⟩ else (b.chan m).edge2 } := by
  simp only [edge, setChan_chan_same, stampEdge, countEdge, edgeForward, beq_iff_eq]
  split <;> split <;> simp_all

theorem edge_other (k : Config) (m n : Chan) (l : Bool) (cap : Capture) (b : Block) (h : n ≠ m) :
    (edge k m l cap b).chan n = b.chan n := setChan_chan_other _ _ _ _ h

theorem edge_globals (k : Config) (m : Chan) (l : Bool) (cap : Capture) (b : Block) :
    (edge k m l cap b).lr = b.lr ∧ (edge k m l cap b).yerr = b.yerr ∧ (edge k m l cap b).clrRefused = b.clrRefused ∧
      (edge k m l cap b).ovfCnt = b.ovfCnt ∧ (edge k m l cap b).tickPhase = b.tickPhase := by simp [edge]

/-! ### The output stage and the controller -/

/-- `Output` either applies the Brake outputs or commits the wanted drive, which then opposes no drive that was on (R117 to
R121). -/
theorem output_cases (k : ChannelConfig) (w : Direction) (v : Nat) (c : Channel) :
    (output k w v c = brakeOutputs k c ∧ (w = .brake ∨ opposes c.direction w = true)) ∨
      (output k w v c = commitOutput k w (min v (c.setSpeed.toNat + k.slewRate)) c ∧ w ≠ .brake ∧
        opposes c.direction w = false) := by
  unfold output
  split
  · exact .inl ⟨rfl, .inl ‹_›⟩
  next hw =>
    split
    · exact .inl ⟨rfl, .inr ‹_›⟩
    next ho => exact .inr ⟨rfl, hw, by simpa using ho⟩

/-- What steps 5 to 12 can do: brake with a zero integral, or move the integral and then brake or commit (R108 to R121). -/
theorem act_cases (k : ChannelConfig) (e : Int) (c : Channel) :
    (e.natAbs ≤ k.deadband ∧ act k e c = gateExit k c) ∨
      (k.deadband < e.natAbs ∧
        let i := nextIntegral k (s32 c.integ) e
        let ec := i + proportional k e
        let v := targetSpeed k ec
        let w := wantedDirection ec v
        (act k e c = brakeOutputs k { c with integ := u32 i } ∧ (w = .brake ∨ opposes c.direction w = true)) ∨
          (act k e c = commitOutput k w (min v (c.setSpeed.toNat + k.slewRate)) { c with integ := u32 i } ∧ w ≠ .brake ∧
            opposes c.direction w = false)) := by
  unfold act
  split
  · exact .inl ⟨‹_›, rfl⟩
  · refine .inr ⟨by omega, ?_⟩
    exact output_cases k _ _ { c with integ := u32 _ }

/-- Steps 2 to 4 leave everything but cmd, pos, err and efferr (R105 to R107). -/
theorem prepare_fields (k : ChannelConfig) (cap : Option Int) (c : Channel) :
    prepare k cap c = { c with cmd := (prepare k cap c).cmd, pos := (prepare k cap c).pos, err := (prepare k cap c).err,
                               efferr := (prepare k cap c).efferr } := by
  unfold prepare switchOverride recordError clampCommand
  split
  · rfl
  · split <;> rfl

/-- The error steps 5 to 12 use. -/
abbrev controlError (k : ChannelConfig) (cap : Option Int) (c : Channel) : Int :=
  effectiveError cap (ownError (switchOverride k (clampCommand k c)))

theorem control_gate {k : ChannelConfig} {cap : Option Int} {c : Channel} (h : c.mode ≠ .positionControl) :
    control k cap c = gateExit k c := by simp [control, h]

theorem control_enabled {k : ChannelConfig} {cap : Option Int} {c : Channel} (h : c.mode = .positionControl) :
    control k cap c = act k (controlError k cap c) (prepare k cap c) := by simp [control, h]

/-- Everything the controller can do, in the channel it started from (R103). -/
theorem control_cases (k : ChannelConfig) (cap : Option Int) (c : Channel) :
    (c.mode ≠ .positionControl ∧ control k cap c = gateExit k c) ∨
      (c.mode = .positionControl ∧
        let p := prepare k cap c
        let e := controlError k cap c
        let i := nextIntegral k (s32 c.integ) e
        let ec := i + proportional k e
        let v := targetSpeed k ec
        let w := wantedDirection ec v
        (e.natAbs ≤ k.deadband ∧ control k cap c = gateExit k p) ∨
        (k.deadband < e.natAbs ∧ control k cap c = brakeOutputs k { p with integ := u32 i } ∧
          (w = .brake ∨ opposes c.direction w = true)) ∨
        (k.deadband < e.natAbs ∧
          control k cap c = commitOutput k w (min v (c.setSpeed.toNat + k.slewRate)) { p with integ := u32 i } ∧
          w ≠ .brake ∧ opposes c.direction w = false)) := by
  by_cases h : c.mode = .positionControl
  · refine .inr ⟨h, ?_⟩
    rw [control_enabled h]
    have hp := prepare_fields k cap c
    have hd : (prepare k cap c).direction = c.direction := by rw [hp]
    have hi : (prepare k cap c).integ = c.integ := by rw [hp]
    have hs : (prepare k cap c).setSpeed = c.setSpeed := by rw [hp]
    have ha := act_cases k (controlError k cap c) (prepare k cap c)
    rw [hd, hi, hs] at ha
    tauto
  · exact .inl ⟨h, control_gate h⟩

/-- The fields no controller run writes (R103). -/
theorem control_keeps (k : ChannelConfig) (cap : Option Int) (c : Channel) :
    (control k cap c).qdir = c.qdir ∧ (control k cap c).mode = c.mode ∧ (control k cap c).homeSw = c.homeSw ∧
      (control k cap c).limitSw = c.limitSw ∧ (control k cap c).error = c.error ∧ (control k cap c).speed = c.speed ∧
      (control k cap c).prev = c.prev ∧ (control k cap c).strike = c.strike ∧ (control k cap c).lastDir = c.lastDir ∧
      (control k cap c).edge1 = c.edge1 ∧ (control k cap c).edge2 = c.edge2 := by
  have hp := prepare_fields k cap c
  rcases control_cases k cap c with ⟨-, h⟩ | ⟨-, ⟨-, h⟩ | ⟨-, h, -⟩ | ⟨-, h, -⟩⟩ <;> rw [h] <;> try rw [hp]
  all_goals simp

/-! ### The overload detector -/

/-- What an evaluation of the detector does to its own channel (R125 to R130). -/
def checkedChannel (k : ChannelConfig) (c : Channel) : Channel :=
  if c.error = .overload then c else if latches k c then latchChannel k (evaluate k c) else evaluate k c

/-- An evaluation latches its channel (R129). -/
def latchesNow (k : ChannelConfig) (c : Channel) : Bool := decide (c.error = .none) && latches k c

theorem overloadCheck_chan (k : Config) (m : Chan) (b : Block) :
    (overloadCheck k m b).chan m = checkedChannel (k.chan m) (b.chan m) := by
  unfold overloadCheck checkedChannel
  split
  · rfl
  · dsimp only
    split
    · cases m <;> rfl
    · simp

theorem overloadCheck_other (k : Config) (m n : Chan) (b : Block) (h : n ≠ m) :
    (overloadCheck k m b).chan n = b.chan n := by
  unfold overloadCheck
  split
  · rfl
  · dsimp only
    split
    · cases m <;> cases n <;> first | rfl | exact absurd rfl h
    · exact setChan_chan_other _ _ _ _ h

theorem overloadCheck_globals (k : Config) (m : Chan) (b : Block) :
    (overloadCheck k m b).lr = b.lr ∧ (overloadCheck k m b).clrRefused = b.clrRefused ∧
      (overloadCheck k m b).ovfCnt = b.ovfCnt ∧ (overloadCheck k m b).tickPhase = b.tickPhase ∧
      (overloadCheck k m b).yerr =
        bif latchesNow (k.chan m) (b.chan m) then yerrAfterOverload m b.yerr else b.yerr := by
  unfold overloadCheck latchesNow
  split
  next h => simp [h]
  next h =>
    have hn : (b.chan m).error = .none := by cases he : (b.chan m).error <;> simp_all
    dsimp only
    split <;> simp_all [latchOverload]

/-- `yerr` after the detector stage (R129, R176). -/
def yerrChecked (k : Config) (b : Block) : YError :=
  let y := bif latchesNow k.yl b.yl then yerrAfterOverload .yl b.yerr else b.yerr
  bif latchesNow k.yr b.yr then yerrAfterOverload .yr y else y

theorem overloadAll_eq (k : Config) (b : Block) :
    overloadAll k b = { b with x := checkedChannel k.x b.x, yl := checkedChannel k.yl b.yl, yr := checkedChannel k.yr b.yr,
                               yerr := yerrChecked k b } := by
  unfold overloadAll
  have hx := overloadCheck_chan k .x b
  have hxl := overloadCheck_other k .x .yl b (by decide)
  have hxr := overloadCheck_other k .x .yr b (by decide)
  have gx := overloadCheck_globals k .x b
  generalize overloadCheck k .x b = b1 at *
  have hl := overloadCheck_chan k .yl b1
  have hlx := overloadCheck_other k .yl .x b1 (by decide)
  have hlr := overloadCheck_other k .yl .yr b1 (by decide)
  have gl := overloadCheck_globals k .yl b1
  generalize overloadCheck k .yl b1 = b2 at *
  have hr := overloadCheck_chan k .yr b2
  have hrx := overloadCheck_other k .yr .x b2 (by decide)
  have hrl := overloadCheck_other k .yr .yl b2 (by decide)
  have gr := overloadCheck_globals k .yr b2
  generalize overloadCheck k .yr b2 = b3 at *
  simp only [chan_x, chan_yl, chan_yr, cfg_chan_x, cfg_chan_yl, cfg_chan_yr] at *
  have hy : b1.yerr = b.yerr := by rw [gx.2.2.2.2]; simp [yerrAfterOverload]
  obtain ⟨gx1, gx2, gx3, gx4, -⟩ := gx
  obtain ⟨gl1, gl2, gl3, gl4, gl5⟩ := gl
  obtain ⟨gr1, gr2, gr3, gr4, gr5⟩ := gr
  rw [hlr, hxr] at hr gr5
  rw [hxl] at hl gl5
  rw [gl5, hy] at gr5
  rw [show b3 = ⟨b3.x, b3.yl, b3.yr, b3.lr, b3.yerr, b3.clrRefused, b3.ovfCnt, b3.tickPhase⟩ from rfl, hrx, hlx, hx, hrl, hl,
    hr, gr1, gl1, gx1, gr2, gl2, gx2, gr3, gl3, gx3, gr4, gl4, gx4, gr5]
  rfl

/-- The evaluation writes strike and last_dir; a latch writes error, mode and the Brake outputs as well; neither writes anything
else (R125). -/
theorem checkedChannel_cases (k : ChannelConfig) (c : Channel) :
    (c.error = .overload ∧ checkedChannel k c = c) ∨
      (c.error = .none ∧ latches k c = true ∧ checkedChannel k c = latchChannel k (addStrike c)) ∨
      (c.error = .none ∧ latches k c = false ∧
        checkedChannel k c = { c with strike := (evaluate k c).strike, lastDir := c.direction }) := by
  unfold checkedChannel
  split
  · exact .inl ⟨‹_›, rfl⟩
  · have hn : c.error = .none := by cases he : c.error <;> simp_all
    split
    next h =>
      refine .inr (.inl ⟨hn, h, ?_⟩)
      simp only [latches, Bool.and_eq_true, decide_eq_true_eq] at h
      simp [evaluate, h]
    next h =>
      refine .inr (.inr ⟨hn, by simpa using h, ?_⟩)
      unfold evaluate
      split
      · rfl
      · rename_i hd
        have : c.direction = c.lastDir := by simpa using hd
        split <;> simp [addStrike, this]

/-! ### The tick -/

/-- The channel the controllers of a tick find, in the channel the tick started with (R84, R86). -/
def readyChannel (k : Config) (sub : Bool) (sw : BitVec 6) (m : Chan) (c : Channel) : Channel :=
  if sub then estimate k.subrateN (k.chan m) (checkedChannel (k.chan m) (sampleChannel sw m c)) else sampleChannel sw m c

@[simp] theorem latches_sample (k : ChannelConfig) (sw : BitVec 6) (m : Chan) (c : Channel) :
    latches k (sampleChannel sw m c) = latches k c := rfl

@[simp] theorem latchesNow_sample (k : ChannelConfig) (sw : BitVec 6) (m : Chan) (c : Channel) :
    latchesNow k (sampleChannel sw m c) = latchesNow k c := rfl

theorem beforeControl_eq (k : Config) (sw : BitVec 6) (b : Block) :
    beforeControl k sw b = { b with
      x := readyChannel k (subrateTick k b) sw .x b.x
      yl := readyChannel k (subrateTick k b) sw .yl b.yl
      yr := readyChannel k (subrateTick k b) sw .yr b.yr
      yerr := if subrateTick k b then yerrChecked k b else b.yerr
      tickPhase := if subrateTick k b then 0 else BitVec.ofNat 10 (b.tickPhase.toNat + 1) } := by
  have hs : subrateTick k (sampleSwitches sw b) = subrateTick k b := rfl
  unfold beforeControl readyChannel
  simp only [hs]
  split
  next h =>
    simp only [subrateStages, overloadAll_eq, estimateAll, advancePhase, sampleSwitches, cfg_chan_x, cfg_chan_yl, cfg_chan_yr]
    have : subrateTick k b = true := h
    simp only [subrateTick] at this
    simp [this, yerrChecked, subrateTick]
  next h =>
    have : subrateTick k b = false := by simpa using h
    simp only [subrateTick] at this
    simp [advancePhase, sampleSwitches, this, subrateTick]

/-- What a tick leaves in a channel's record before any controller runs, field by field (R84, R98, R125). -/
theorem readyChannel_keeps (k : Config) (sub : Bool) (sw : BitVec 6) (m : Chan) (c : Channel) :
    let r := readyChannel k sub sw m c
    r.pos = c.pos ∧ r.cmd = c.cmd ∧ r.err = c.err ∧ r.efferr = c.efferr ∧ r.qdir = c.qdir ∧ r.integ = c.integ ∧
      r.edge1 = c.edge1 ∧ r.edge2 = c.edge2 ∧ r.homeSw = homeLevel sw m ∧ r.limitSw = limitLevel sw m := by
  dsimp only
  unfold readyChannel
  split
  · rcases checkedChannel_cases (k.chan m) (sampleChannel sw m c) with ⟨-, h⟩ | ⟨-, -, h⟩ | ⟨-, -, h⟩ <;> rw [h] <;> simp
  · simp

/-- Either the detector latched the channel, which is then Disabled and braked, or error, mode and the outputs stand (R129). -/
theorem readyChannel_latch (k : Config) (sub : Bool) (sw : BitVec 6) (m : Chan) (c : Channel) :
    let r := readyChannel k sub sw m c
    (sub = true ∧ latchesNow (k.chan m) c = true ∧ r.error = .overload ∧ r.mode = .disabled ∧ r.direction = .brake ∧
        r.setSpeed = 0 ∧ r.pwmDuty = BitVec.ofNat 8 (k.chan m).dutyBrake ∧ r.strike = (addStrike c).strike ∧
        r.lastDir = c.lastDir) ∨
      ((sub = false ∨ latchesNow (k.chan m) c = false) ∧ r.error = c.error ∧ r.mode = c.mode ∧
        r.direction = c.direction ∧ r.setSpeed = c.setSpeed ∧ r.pwmDuty = c.pwmDuty) := by
  dsimp only
  unfold readyChannel latchesNow
  split
  next hs =>
    rcases checkedChannel_cases (k.chan m) (sampleChannel sw m c) with ⟨he, h⟩ | ⟨he, hl, h⟩ | ⟨he, hl, h⟩
    · right
      simp only [sampleChannel_error] at he
      rw [h]; simp [he]
    · left
      simp only [sampleChannel_error, latches_sample] at he hl
      rw [h]; simp [he, hl, hs]
    · right
      simp only [sampleChannel_error, latches_sample] at he hl
      rw [h]; simp [hl, he]
  next hs => right; simp [hs]

/-- The magnitude of the divergence the synchronizer of a tick tests: that of the positions the tick started with (R136, R202). -/
theorem divergence_before (k : Config) (sw : BitVec 6) (b : Block) :
    divergence (controlX k (beforeControl k sw b)) = divergence b := by
  rw [beforeControl_eq]
  simp [divergence, (readyChannel_keeps _ _ _ _ _).1]

/-- A whole tick, its synchronizer not tripping (R83, R138, R139). -/
theorem tick_run {k : Config} {sw : BitVec 6} {b : Block} (h : (divergence b).natAbs < k.mismatchLimit) :
    tick k sw b = { beforeControl k sw b with
      x := control k.x none (readyChannel k (subrateTick k b) sw .x b.x)
      yl := control k.yl none (readyChannel k (subrateTick k b) sw .yl b.yl)
      yr := control k.yr (some (divergence b)) { readyChannel k (subrateTick k b) sw .yr b.yr with cmd := b.yl.cmd }
      lr := u32 (divergence b) } := by
  have hd := divergence_before k sw b
  have hs : s32 (u32 (divergence b)) = divergence b := s32_u32_sat32 _
  unfold tick synchronize
  simp only [trackMaster_lr, hd, hs, Nat.not_le.2 h, if_false]
  rw [beforeControl_eq]
  simp [controlPair, trackMaster, controlX, (readyChannel_keeps _ _ _ _ _).2.1]
  simp [divergence, (readyChannel_keeps _ _ _ _ _).1]

/-- A whole tick, its synchronizer tripping (R83, R137). -/
theorem tick_trip {k : Config} {sw : BitVec 6} {b : Block} (h : k.mismatchLimit ≤ (divergence b).natAbs) :
    tick k sw b = tripMismatch k { beforeControl k sw b with
      x := control k.x none (readyChannel k (subrateTick k b) sw .x b.x)
      yr := { readyChannel k (subrateTick k b) sw .yr b.yr with cmd := b.yl.cmd }
      lr := u32 (divergence b) } := by
  have hd := divergence_before k sw b
  have hs : s32 (u32 (divergence b)) = divergence b := s32_u32_sat32 _
  unfold tick synchronize
  simp only [trackMaster_lr, hd, hs, h, if_true]
  rw [beforeControl_eq]
  simp [trackMaster, controlX, (readyChannel_keeps _ _ _ _ _).2.1]
  simp [divergence, (readyChannel_keeps _ _ _ _ _).1]

end Sys2Proof.Machine
end

