-- ==== Sys2Proof/Laws/Bus.lean ====
section
/-! SUPPORT. The address map (spec/20_memory.md R57, spec/47_host_interface.md R143): which addresses have a rule, and that the
operation at an address and the word on the bus there are of one register. -/

namespace Sys2Proof.Machine

/-- The addresses a READ has no rule for, as ranges (R143). -/
abbrev hole (n : Nat) : Prop :=
  n % 4 ≠ 0 ∨ (0x038 ≤ n ∧ n ≤ 0x03F) ∨ (0x078 ≤ n ∧ n ≤ 0x07F) ∨ (0x0B8 ≤ n ∧ n ≤ 0x0FF) ∨ 0x114 ≤ n

/-- A row of the READ map is outside the holes. -/
theorem readMap_not_hole : ∀ p ∈ readMap, ¬ hole p.1 := by decide

/-- A row of the READ map is the RD row of the register at its address (R57, R78). -/
theorem readMap_row : ∀ p ∈ readMap,
    (∃ m ∈ [Chan.x, .yl, .yr], ∃ r ∈ regList, p.2 = Instr.rd m r ∧ BitVec.ofNat 12 p.1 = regAddr m r) ∨
      ∃ g ∈ gregList, p.2 = Instr.rdGlobal g ∧ BitVec.ofNat 12 p.1 = globalAddr g := by decide

/-- The word addresses of the register space are the keys of the READ map. -/
theorem readMap_keys : readMap.map Prod.fst =
    (List.range 14).map (4 * ·) ++ (List.range 14).map (64 + 4 * ·) ++ (List.range 14).map (128 + 4 * ·) ++
      (List.range 5).map (256 + 4 * ·) := by decide

theorem lookup_isSome {α : Type} (l : List (Nat × α)) (n : Nat) :
    (l.lookup n).isSome = true ↔ n ∈ l.map Prod.fst := by
  induction l with
  | nil => simp
  | cons p l ih =>
    obtain ⟨k, v⟩ := p
    rw [List.lookup_cons, List.map_cons, List.mem_cons]
    split
    next h => simp_all
    next h => rw [ih]; simp_all

/-- The READ map has a row for exactly the addresses outside the holes (R143). -/
theorem readMap_lookup_none (n : Nat) : readMap.lookup n = none ↔ hole n := by
  have h := lookup_isSome readMap n
  rw [readMap_keys] at h
  simp only [List.mem_append, List.mem_map, List.mem_range] at h
  rw [← Option.not_isSome_iff_eq_none, h]
  constructor
  · intro hn
    by_contra hh
    unfold hole at hh
    rcases (by omega : n < 56 ∨ (64 ≤ n ∧ n < 120) ∨ (128 ≤ n ∧ n < 184) ∨ (256 ≤ n ∧ n < 276)) with h1 | h1 | h1 | h1
    · exact hn (.inl (.inl (.inl ⟨n / 4, by omega, by omega⟩)))
    · exact hn (.inl (.inl (.inr ⟨(n - 64) / 4, by omega, by omega⟩)))
    · exact hn (.inl (.inr ⟨(n - 128) / 4, by omega, by omega⟩))
    · exact hn (.inr ⟨(n - 256) / 4, by omega, by omega⟩)
  · rintro hh (((⟨i, h1, h2⟩ | ⟨i, h1, h2⟩) | ⟨i, h1, h2⟩) | ⟨i, h1, h2⟩) <;> unfold hole at hh <;> omega

/-- A READ with a rule is of the register at its address (R143). -/
theorem readMap_lookup_some {a : Addr} {i : Instr} (h : readMap.lookup a.toNat = some i) :
    (∃ m r, i = Instr.rd m r ∧ a = regAddr m r) ∨ ∃ g, i = Instr.rdGlobal g ∧ a = globalAddr g := by
  have ha : BitVec.ofNat 12 a.toNat = a := by simp
  rcases readMap_row _ (mem_of_lookup h) with ⟨m, -, r, -, h1, h2⟩ | ⟨g, -, h1, h2⟩
  · exact .inl ⟨m, r, h1, ha.symm.trans h2⟩
  · exact .inr ⟨g, h1, ha.symm.trans h2⟩

theorem busWord_reg (b : Block) (m : Chan) (r : Reg) : busWord b (regAddr m r) = some (regWord (b.chan m) r) := by
  cases m <;> cases r <;> rfl

theorem busWord_global (b : Block) (g : GReg) : busWord b (globalAddr g) = some (globalWord b g) := by
  cases g <;> rfl

/-- The bus holds a word at exactly the addresses the READ map has a row for (R143). -/
theorem busWords_keys (b : Block) : (busWords b).map Prod.fst = readMap.map fun p => BitVec.ofNat 12 p.1 := rfl

/-- There is no word on the bus in a hole (R143). -/
theorem busWord_hole {b : Block} {a : Addr} (h : hole a.toNat) : busWord b a = none := by
  have key : ∀ l : List (Addr × Word), a ∉ l.map Prod.fst → l.lookup a = none := by
    intro l
    induction l with
    | nil => exact fun _ => rfl
    | cons p l ih =>
      obtain ⟨k, v⟩ := p
      intro hn
      simp only [List.map_cons, List.mem_cons, not_or] at hn
      rw [List.lookup_cons, ih hn.2]
      have : (a == k) = false := by simpa using hn.1
      rw [this]
  apply key
  rw [busWords_keys]
  intro hm
  obtain ⟨p, hp, he⟩ := List.mem_map.1 hm
  have hlt := (readMap_spells p hp).2
  have hn : a.toNat = p.1 := by rw [← he, BitVec.toNat_ofNat]; omega
  exact readMap_not_hole p hp (hn ▸ h)

/-- The WRITE map has a row for exactly nine addresses (R143). -/
theorem writeMap_lookup_isSome (n : Nat) : (writeMap.lookup n).isSome = true ↔
    n ∈ [0x000, 0x004, 0x010, 0x040, 0x044, 0x050, 0x080, 0x090, 0x108] := by
  rw [lookup_isSome]
  rfl

end Sys2Proof.Machine
end

