-- ==== Sys2Proof/Laws/PerInstr.lean ====
section
/-! SUPPORT. The family WordCount, made for each instruction: the kind of its first word alone fixes how many words the
instruction has, one data word after a WRITE's and none after any other (spec/30_encoding.md R69). -/

namespace Sys2Proof.Laws.WordCount

/-- The words of `i` after the first: one when the first word's kind is WRITE, none otherwise (R69). -/
def Statement (i : Instr) : Prop :=
  ∃ w rest, encode i = w :: rest ∧ rest.length = if w.toNat / 2 ^ 28 = 4 then 1 else 0

theorem of_one {i : Instr} {w : Word} (h : encode i = [w]) (hk : w.toNat / 2 ^ 28 ≠ 4) : Statement i :=
  ⟨w, [], h, by rw [if_neg hk]; rfl⟩

theorem of_two {i : Instr} {w d : Word} (h : encode i = [w, d]) (hk : w.toNat / 2 ^ 28 = 4) : Statement i :=
  ⟨w, [d], h, by rw [if_pos hk]; rfl⟩

theorem edgeWord_kind (m : BitVec 2) (b : Bool) (cap : Capture) : (edgeWord m b cap).toNat / 2 ^ 28 ≠ 4 := by
  have hc := cap.isLt
  have hm := m.isLt
  have hb := Bool.toNat_lt b
  rw [edgeWord_toNat]
  omega

theorem tickWord_kind (sw : BitVec 6) : (tickWord sw).toNat / 2 ^ 28 ≠ 4 := by
  have h := sw.isLt
  rw [tickWord_toNat]
  omega

theorem edgeX (b : Bool) (cap : Capture) : Statement (.edgeX b cap) := of_one rfl (edgeWord_kind _ b cap)

theorem edgeYl (b : Bool) (cap : Capture) : Statement (.edgeYl b cap) := of_one rfl (edgeWord_kind _ b cap)

theorem edgeYr (b : Bool) (cap : Capture) : Statement (.edgeYr b cap) := of_one rfl (edgeWord_kind _ b cap)

theorem ovf : Statement .ovf := of_one rfl (by decide)

theorem tick (sw : BitVec 6) : Statement (.tick sw) := of_one rfl (tickWord_kind sw)

theorem wrPosX (d : Word) : Statement (.wrPosX d) := of_two rfl (by decide)

theorem wrPosYl (d : Word) : Statement (.wrPosYl d) := of_two rfl (by decide)

theorem wrPosYr (d : Word) : Statement (.wrPosYr d) := of_two rfl (by decide)

theorem wrCmdX (d : Word) : Statement (.wrCmdX d) := of_two rfl (by decide)

theorem wrCmdYl (d : Word) : Statement (.wrCmdYl d) := of_two rfl (by decide)

theorem wrModeX (d : Word) : Statement (.wrModeX d) := of_two rfl (by decide)

theorem wrModeYl (d : Word) : Statement (.wrModeYl d) := of_two rfl (by decide)

theorem wrModeYr (d : Word) : Statement (.wrModeYr d) := of_two rfl (by decide)

theorem wrCtrl (d : Word) : Statement (.wrCtrl d) := of_two rfl (by decide)

theorem rdPosX : Statement .rdPosX := of_one rfl (by decide)

theorem rdPosYl : Statement .rdPosYl := of_one rfl (by decide)

theorem rdPosYr : Statement .rdPosYr := of_one rfl (by decide)

theorem rdCmdX : Statement .rdCmdX := of_one rfl (by decide)

theorem rdCmdYl : Statement .rdCmdYl := of_one rfl (by decide)

theorem rdCmdYr : Statement .rdCmdYr := of_one rfl (by decide)

theorem rdErrX : Statement .rdErrX := of_one rfl (by decide)

theorem rdErrYl : Statement .rdErrYl := of_one rfl (by decide)

theorem rdErrYr : Statement .rdErrYr := of_one rfl (by decide)

theorem rdEfferrX : Statement .rdEfferrX := of_one rfl (by decide)

theorem rdEfferrYl : Statement .rdEfferrYl := of_one rfl (by decide)

theorem rdEfferrYr : Statement .rdEfferrYr := of_one rfl (by decide)

theorem rdModeX : Statement .rdModeX := of_one rfl (by decide)

theorem rdModeYl : Statement .rdModeYl := of_one rfl (by decide)

theorem rdModeYr : Statement .rdModeYr := of_one rfl (by decide)

theorem rdStatusX : Statement .rdStatusX := of_one rfl (by decide)

theorem rdStatusYl : Statement .rdStatusYl := of_one rfl (by decide)

theorem rdStatusYr : Statement .rdStatusYr := of_one rfl (by decide)

theorem rdDriveX : Statement .rdDriveX := of_one rfl (by decide)

theorem rdDriveYl : Statement .rdDriveYl := of_one rfl (by decide)

theorem rdDriveYr : Statement .rdDriveYr := of_one rfl (by decide)

theorem rdIntegX : Statement .rdIntegX := of_one rfl (by decide)

theorem rdIntegYl : Statement .rdIntegYl := of_one rfl (by decide)

theorem rdIntegYr : Statement .rdIntegYr := of_one rfl (by decide)

theorem rdSpeedX : Statement .rdSpeedX := of_one rfl (by decide)

theorem rdSpeedYl : Statement .rdSpeedYl := of_one rfl (by decide)

theorem rdSpeedYr : Statement .rdSpeedYr := of_one rfl (by decide)

theorem rdPrevX : Statement .rdPrevX := of_one rfl (by decide)

theorem rdPrevYl : Statement .rdPrevYl := of_one rfl (by decide)

theorem rdPrevYr : Statement .rdPrevYr := of_one rfl (by decide)

theorem rdStrikeX : Statement .rdStrikeX := of_one rfl (by decide)

theorem rdStrikeYl : Statement .rdStrikeYl := of_one rfl (by decide)

theorem rdStrikeYr : Statement .rdStrikeYr := of_one rfl (by decide)

theorem rdEdge1X : Statement .rdEdge1X := of_one rfl (by decide)

theorem rdEdge1Yl : Statement .rdEdge1Yl := of_one rfl (by decide)

theorem rdEdge1Yr : Statement .rdEdge1Yr := of_one rfl (by decide)

theorem rdEdge2X : Statement .rdEdge2X := of_one rfl (by decide)

theorem rdEdge2Yl : Statement .rdEdge2Yl := of_one rfl (by decide)

theorem rdEdge2Yr : Statement .rdEdge2Yr := of_one rfl (by decide)

theorem rdPeriodX : Statement .rdPeriodX := of_one rfl (by decide)

theorem rdPeriodYl : Statement .rdPeriodYl := of_one rfl (by decide)

theorem rdPeriodYr : Statement .rdPeriodYr := of_one rfl (by decide)

theorem rdYstat : Statement .rdYstat := of_one rfl (by decide)

theorem rdLrerr : Statement .rdLrerr := of_one rfl (by decide)

theorem rdCtrl : Statement .rdCtrl := of_one rfl (by decide)

theorem rdOvfcnt : Statement .rdOvfcnt := of_one rfl (by decide)

theorem rdPhase : Statement .rdPhase := of_one rfl (by decide)

end Sys2Proof.Laws.WordCount
end

