-- ==== Sys2Proof/Laws/Tick.lean ====
section
/-! SUPPORT. What a whole TICK can do, said once for a channel and once for the block's own fields. -/

namespace Sys2Proof.Machine

/-- `yerr` as the synchronizer of a tick finds it (R86, R176). -/
def yerrBefore (k : Config) (b : Block) : YError := if subrateTick k b then yerrChecked k b else b.yerr

/-- The detector stage's only effect on the Y fault: a Y channel's latch becomes it if none is held (R129, R176). -/
theorem yerrBefore_eq (k : Config) (b : Block) :
    yerrBefore k b = if b.yerr = .none ∧ subrateTick k b = true ∧ (latchesNow k.yl b.yl = true ∨ latchesNow k.yr b.yr = true)
      then .overload else b.yerr := by
  unfold yerrBefore yerrChecked yerrAfterOverload
  cases subrateTick k b <;> cases latchesNow k.yl b.yl <;> cases latchesNow k.yr b.yr <;> cases b.yerr <;> simp

/-- A channel as its controller in a tick finds it: sampled and checked, the slave with the master's command (R83, R135). -/
def controlInput (k : Config) (sw : BitVec 6) (b : Block) (m : Chan) : Channel :=
  { readyChannel k (subrateTick k b) sw m (b.chan m) with cmd := if m = .yr then b.yl.cmd else (b.chan m).cmd }

theorem controlInput_x (k : Config) (sw : BitVec 6) (b : Block) :
    controlInput k sw b .x = readyChannel k (subrateTick k b) sw .x b.x := by
  unfold controlInput
  rw [if_neg (by decide), ← (readyChannel_keeps k (subrateTick k b) sw .x (b.chan .x)).2.1]
  rfl

theorem controlInput_yl (k : Config) (sw : BitVec 6) (b : Block) :
    controlInput k sw b .yl = readyChannel k (subrateTick k b) sw .yl b.yl := by
  unfold controlInput
  rw [if_neg (by decide), ← (readyChannel_keeps k (subrateTick k b) sw .yl (b.chan .yl)).2.1]
  rfl

theorem controlInput_yr (k : Config) (sw : BitVec 6) (b : Block) :
    controlInput k sw b .yr = { readyChannel k (subrateTick k b) sw .yr b.yr with cmd := b.yl.cmd } := rfl

/-- The cap of a channel's error in a tick: the divergence for the slave, none for any other (R138, R139). -/
def controlCap (b : Block) : Chan → Option Int
  | .yr => some (divergence b)
  | _ => none

/-- What a whole tick does to a channel: its controller runs, or it is a Y channel braked by the trip (R83, R137). -/
theorem tick_chan (k : Config) (sw : BitVec 6) (b : Block) (m : Chan) :
    ((m = .x ∨ (divergence b).natAbs < k.mismatchLimit) ∧
        (tick k sw b).chan m = control (k.chan m) (controlCap b m) (controlInput k sw b m)) ∨
      (m ≠ .x ∧ k.mismatchLimit ≤ (divergence b).natAbs ∧
        (yerrBefore k b = .none →
          (tick k sw b).chan m = brakeOutputs (k.chan m) { controlInput k sw b m with mode := .disabled }) ∧
        (yerrBefore k b ≠ .none → (tick k sw b).chan m = brakeOutputs (k.chan m) (controlInput k sw b m))) := by
  rcases Nat.lt_or_ge (divergence b).natAbs k.mismatchLimit with h | h
  · exact .inl ⟨.inr h, by
      rw [tick_run h]; cases m <;> simp only [controlInput_x, controlInput_yl, controlInput_yr] <;> rfl⟩
  · rw [tick_trip h, beforeControl_eq]
    unfold tripMismatch yerrBefore
    dsimp only
    cases m <;> simp only [controlInput_x, controlInput_yl, controlInput_yr]
    · left; refine ⟨by simp, ?_⟩; by_cases hn : yerrBefore k b = .none <;> unfold yerrBefore at hn <;> simp only [hn, if_true, if_false] <;> rfl
    · right; refine ⟨by decide, h, fun hn => ?_, fun hn => ?_⟩ <;> simp only [hn, if_true, if_false] <;> rfl
    · right; refine ⟨by decide, h, fun hn => ?_, fun hn => ?_⟩ <;> simp only [hn, if_true, if_false] <;> rfl

/-- The block's own fields after a tick (R83, R85, R136, R137). -/
theorem tick_globals (k : Config) (sw : BitVec 6) (b : Block) :
    (tick k sw b).lr = u32 (divergence b) ∧ (tick k sw b).clrRefused = b.clrRefused ∧ (tick k sw b).ovfCnt = b.ovfCnt ∧
      (tick k sw b).tickPhase = (if subrateTick k b then 0 else BitVec.ofNat 10 (b.tickPhase.toNat + 1)) ∧
      ((divergence b).natAbs < k.mismatchLimit → (tick k sw b).yerr = yerrBefore k b) ∧
      (k.mismatchLimit ≤ (divergence b).natAbs → yerrBefore k b = .none → (tick k sw b).yerr = .lrMismatch) ∧
      (yerrBefore k b ≠ .none → (tick k sw b).yerr = yerrBefore k b) := by
  rcases Nat.lt_or_ge (divergence b).natAbs k.mismatchLimit with h | h
  · rw [tick_run h, beforeControl_eq]
    exact ⟨rfl, rfl, rfl, rfl, fun _ => rfl, fun h' => absurd h' (by omega), fun _ => rfl⟩
  · rw [tick_trip h, beforeControl_eq]
    by_cases hn : yerrBefore k b = .none <;> unfold yerrBefore at hn <;>
      simp only [tripMismatch, yerrBefore, hn, if_true, if_false, ne_eq, not_true, not_false_iff, true_and, false_imp_iff,
        imp_true_iff, and_true]
    exact fun h' => absurd h' (by omega)

/-- Where the controller of a tick starts from, in the channel the tick started with (R84, R98, R125). -/
theorem controlInput_keeps (k : Config) (sw : BitVec 6) (b : Block) (m : Chan) :
    let r := controlInput k sw b m
    let c := b.chan m
    r.pos = c.pos ∧ r.err = c.err ∧ r.efferr = c.efferr ∧ r.qdir = c.qdir ∧ r.integ = c.integ ∧ r.edge1 = c.edge1 ∧
      r.edge2 = c.edge2 ∧ r.homeSw = homeLevel sw m ∧ r.limitSw = limitLevel sw m := by
  have h := readyChannel_keeps k (subrateTick k b) sw m (b.chan m)
  exact ⟨h.1, h.2.2⟩

/-- No stage of a tick after the detector writes error: it is the latch of this tick, or as it was (R36, R129). -/
theorem tick_error (k : Config) (sw : BitVec 6) (b : Block) (m : Chan) :
    ((tick k sw b).chan m).error =
      if subrateTick k b = true ∧ latchesNow (k.chan m) (b.chan m) = true then .overload else (b.chan m).error := by
  have hc : ((tick k sw b).chan m).error = (controlInput k sw b m).error := by
    rcases tick_chan k sw b m with ⟨-, h⟩ | ⟨-, -, h1, h2⟩
    · rw [h, (control_keeps _ _ _).2.2.2.2.1]
    · by_cases hy : yerrBefore k b = .none
      · rw [h1 hy]; rfl
      · rw [h2 hy]; rfl
  have hl := readyChannel_latch k (subrateTick k b) sw m (b.chan m)
  rw [hc]
  change (readyChannel k (subrateTick k b) sw m (b.chan m)).error = _
  rcases hl with ⟨hs, hn, h, -⟩ | ⟨hn, h, -⟩
  · rw [h, if_pos ⟨hs, hn⟩]
  · rw [h, if_neg (by rcases hn with hn | hn <;> simp [hn])]

/-- A latch of this tick shows in the channel's error, and nothing else changes it. -/
theorem tick_error_changed (k : Config) (sw : BitVec 6) (b : Block) (m : Chan) :
    ((tick k sw b).chan m).error ≠ (b.chan m).error ↔
      subrateTick k b = true ∧ latchesNow (k.chan m) (b.chan m) = true := by
  rw [tick_error]
  refine ⟨fun h => by_contra fun hn => h (if_neg hn), fun h => ?_⟩
  have hn : (b.chan m).error = .none := by simpa [latchesNow] using (Bool.and_eq_true _ _ ▸ h.2 :).1
  rw [if_pos h, hn]; decide

/-- The mode the controllers of a tick find: Disabled in a channel the detector latched, else the channel's own (R129). -/
theorem controlInput_mode (k : Config) (sw : BitVec 6) (b : Block) (m : Chan) :
    (controlInput k sw b m).mode =
      if subrateTick k b = true ∧ latchesNow (k.chan m) (b.chan m) = true then .disabled else (b.chan m).mode := by
  have hl := readyChannel_latch k (subrateTick k b) sw m (b.chan m)
  change (readyChannel k (subrateTick k b) sw m (b.chan m)).mode = _
  rcases hl with ⟨hs, hn, -, h, -⟩ | ⟨hn, -, h, -⟩
  · rw [h, if_pos ⟨hs, hn⟩]
  · rw [h, if_neg (by rcases hn with hn | hn <;> simp [hn])]

/-- The whole record the controllers of a tick find: the sampled channel, on a sub-rate tick with the four fields of the detector
and the estimator, and in a channel it latches with the entry of the fault (R84, R86, R129). -/
theorem readyChannel_record (k : Config) (sub : Bool) (sw : BitVec 6) (m : Chan) (c : Channel) :
    let r := readyChannel k sub sw m c
    let stages := { sampleChannel sw m c with strike := r.strike, lastDir := r.lastDir, speed := r.speed, prev := r.prev }
    (sub = false → r = sampleChannel sw m c) ∧
      (sub = true → latchesNow (k.chan m) c = false → r = stages) ∧
      (sub = true → latchesNow (k.chan m) c = true → r = latchChannel (k.chan m) stages) := by
  dsimp only
  unfold readyChannel latchesNow
  refine ⟨fun h => by simp [h], fun h hl => ?_, fun h hl => ?_⟩ <;> simp only [h, if_true]
  · rcases checkedChannel_cases (k.chan m) (sampleChannel sw m c) with ⟨-, h⟩ | ⟨he, h, -⟩ | ⟨-, -, h⟩
    · rw [h]; rfl
    · rw [latches_sample] at h; rw [sampleChannel_error] at he; simp [he, h] at hl
    · rw [h]; rfl
  · simp only [Bool.and_eq_true, decide_eq_true_eq] at hl
    rcases checkedChannel_cases (k.chan m) (sampleChannel sw m c) with ⟨h, -⟩ | ⟨-, -, h⟩ | ⟨-, h, -⟩
    · rw [sampleChannel_error, hl.1] at h; cases h
    · rw [h]; rfl
    · rw [latches_sample, hl.2] at h; cases h

/-- The speed and the sample after the estimator stage of a tick (R86, R98). -/
theorem readyChannel_speed (k : Config) (sub : Bool) (sw : BitVec 6) (m : Chan) (c : Channel) :
    let r := readyChannel k sub sw m c
    (sub = true → r.prev = c.pos ∧ r.speed = u32 (speedOf k.subrateN (k.chan m) (s32 c.pos - s32 c.prev).natAbs)) ∧
      (sub = false → r.prev = c.prev ∧ r.speed = c.speed) := by
  dsimp only
  unfold readyChannel
  refine ⟨fun h => ?_, fun h => ?_⟩ <;> simp only [h, if_true, if_false, Bool.false_eq_true]
  · rcases checkedChannel_cases (k.chan m) (sampleChannel sw m c) with ⟨-, h⟩ | ⟨-, -, h⟩ | ⟨-, -, h⟩ <;> rw [h] <;> simp
  · simp

/-- The count and the sampled direction after the detector stage of a tick (R86, R125). -/
theorem readyChannel_strike (k : Config) (sub : Bool) (sw : BitVec 6) (m : Chan) (c : Channel) :
    let r := readyChannel k sub sw m c
    (sub = false ∨ c.error = .overload → r.strike = c.strike ∧ r.lastDir = c.lastDir ∧ r.error = c.error) ∧
      (sub = true → c.error = .none → r.strike = (evaluate (k.chan m) c).strike ∧ r.lastDir = c.direction ∧
        r.error = if latches (k.chan m) c then .overload else .none) := by
  dsimp only
  unfold readyChannel
  refine ⟨fun h => ?_, fun h he => ?_⟩
  · cases sub
    · simp
    · have h : c.error = .overload := by simpa using h
      have : checkedChannel (k.chan m) (sampleChannel sw m c) = sampleChannel sw m c := by simp [checkedChannel, h]
      simp [this]
  · simp only [h, if_true]
    have hev : (evaluate (k.chan m) (sampleChannel sw m c)).strike = (evaluate (k.chan m) c).strike := by
      have hs : stalled (k.chan m) (sampleChannel sw m c) = stalled (k.chan m) c := rfl
      unfold evaluate
      rw [hs]
      by_cases h1 : c.direction = c.lastDir <;> by_cases h2 : stalled (k.chan m) c = true <;> simp [h1, h2, addStrike]
    rcases checkedChannel_cases (k.chan m) (sampleChannel sw m c) with ⟨h, -⟩ | ⟨-, hl, h⟩ | ⟨-, hl, h⟩
    · rw [sampleChannel_error, he] at h; cases h
    · rw [h]
      rw [latches_sample] at hl
      have hl' := hl
      simp only [latches, Bool.and_eq_true, decide_eq_true_eq] at hl'
      simp [hl, evaluate, hl', addStrike]
    · rw [h]
      rw [latches_sample] at hl
      simp [hl, he, hev]

end Sys2Proof.Machine
end

