-- ==== Sys2Proof/Tests/Slice0.lean ====
section
/-! SUPPORT. Tests: the checks of WellFormed each refusing an ill-formed term, the words of every row of the opcode map decoded,
one-step vectors of spec/95_test_vectors.md (their numbers stand in the comments), and for every statement with hypotheses a
concrete case that meets them all. -/

namespace Sys2Proof.Tests

open Sys2Proof.Machine

/-! ### Helpers -/

/-- P0 with another X channel. -/
def withX (k : ChannelConfig) : Config := { p0 with x := k }

/-- A machine under `k` whose block is `b`. -/
def machine (k : Config) (b : Block) : State := { State.resetWith k with blk := b }

/-- The reset machine of P0 with another X record. -/
def xIs (c : Channel) : State := machine p0 { Block.resetWith p0 with x := c }

/-- The reset machine of P0 with other Y records. -/
def ysAre (l r : Channel) : State := machine p0 { Block.resetWith p0 with yl := l, yr := r }

/-- A channel right after reset under P0. -/
def idle : Channel := Channel.resetWith p0Channel

/-- An enabled channel. -/
def enabled : Channel := { idle with mode := .positionControl }

/-- An enabled channel that has run Forward at full speed since before the last evaluation. -/
def running : Channel := { enabled with direction := .forward, setSpeed := 100, pwmDuty := 100, lastDir := .forward }

/-- An outcome is a next state that `p` holds of. -/
def shows (r : Result) (p : State → Bool) : Bool :=
  match r with
  | .next t => p t
  | _ => false

/-- An outcome is a next state whose response is OKAY with this data word. -/
def answers (r : Result) (w : Word) : Bool := shows r fun t => t.resp == some ⟨.okay, some w⟩

/-- An outcome is a next state whose response is ERR, with the block as it was in `s`. -/
def errs (s : State) (r : Result) : Bool := shows r fun t => t.resp == some ⟨.err, none⟩ && t.blk == s.blk

/-! ### WellFormed refuses -/

theorem test_wf_refuses_homeOffset : (withX { p0Channel with homeOffset := 2147483648 }).wf = false ∧ (withX { p0Channel with homeOffset := -2147483649 }).wf = false := by decide

theorem test_wf_refuses_homePos : (withX { p0Channel with homePos := 2147483648 }).wf = false ∧ (withX { p0Channel with homePos := -2147483649 }).wf = false := by decide

theorem test_wf_refuses_limitPos : (withX { p0Channel with limitPos := 2147483648 }).wf = false ∧ (withX { p0Channel with limitPos := -2147483649 }).wf = false := by decide

theorem test_wf_refuses_boundary : (withX { p0Channel with boundary := 5001 }).wf = false := by decide

theorem test_wf_refuses_length : (withX { p0Channel with length := 2147483648 }).wf = false ∧ (withX { p0Channel with length := 199 }).wf = false := by decide

theorem test_wf_refuses_deadband : (withX { p0Channel with deadband := 2147483648 }).wf = false := by decide

theorem test_wf_refuses_gainP : (withX { p0Channel with gainP := 65536 }).wf = false := by decide

theorem test_wf_refuses_gainPFactor : (withX { p0Channel with gainPFactor := 0 }).wf = false ∧ (withX { p0Channel with gainPFactor := 65536 }).wf = false := by decide

theorem test_wf_refuses_gainI : (withX { p0Channel with gainI := 65536 }).wf = false := by decide

theorem test_wf_refuses_integralLimit : (withX { p0Channel with integralLimit := 2147483648 }).wf = false := by decide

theorem test_wf_refuses_maxSpeed : (withX { p0Channel with maxSpeed := 101 }).wf = false := by decide

theorem test_wf_refuses_slewRate : (withX { p0Channel with slewRate := 0 }).wf = false ∧ (withX { p0Channel with slewRate := 101 }).wf = false := by decide

theorem test_wf_refuses_dutyFwdK : (withX { p0Channel with dutyFwdK := 32768 }).wf = false ∧ (withX { p0Channel with dutyFwdK := -32769 }).wf = false := by decide

theorem test_wf_refuses_dutyRevK : (withX { p0Channel with dutyRevK := 32768 }).wf = false ∧ (withX { p0Channel with dutyRevK := -32769 }).wf = false := by decide

theorem test_wf_refuses_dutyKDen : (withX { p0Channel with dutyKDen := 0 }).wf = false ∧ (withX { p0Channel with dutyKDen := 65536 }).wf = false := by decide

theorem test_wf_refuses_dutyFwdOffset : (withX { p0Channel with dutyFwdOffset := 101 }).wf = false := by decide

theorem test_wf_refuses_dutyRevOffset : (withX { p0Channel with dutyRevOffset := 101 }).wf = false := by decide

theorem test_wf_refuses_dutyBrake : (withX { p0Channel with dutyBrake := 101 }).wf = false := by decide

theorem test_wf_refuses_mmPerRev : (withX { p0Channel with mmPerRev := 0 }).wf = false ∧ (withX { p0Channel with mmPerRev := 65536 }).wf = false := by decide

theorem test_wf_refuses_ticksPerRev : (withX { p0Channel with ticksPerRev := 0 }).wf = false ∧ (withX { p0Channel with ticksPerRev := 65536 }).wf = false := by decide

theorem test_wf_refuses_speedFloor : (withX { p0Channel with speedFloor := 4294967296 }).wf = false := by decide

theorem test_wf_refuses_strikeLimit : (withX { p0Channel with strikeLimit := 0 }).wf = false ∧ (withX { p0Channel with strikeLimit := 65536 }).wf = false := by decide

theorem test_wf_refuses_yl : ({ p0 with yl := { p0Channel with slewRate := 0 } } : Config).wf = false := by decide

theorem test_wf_refuses_yr : ({ p0 with yr := { p0Channel with slewRate := 0 } } : Config).wf = false := by decide

theorem test_wf_refuses_subrateN : ({ p0 with subrateN := 0 } : Config).wf = false ∧
    ({ p0 with subrateN := 1001 } : Config).wf = false := by decide

theorem test_wf_refuses_uneven_subrate : ({ p0 with subrateN := 3 } : Config).wf = false := by decide

theorem test_wf_refuses_mismatchLimit : ({ p0 with mismatchLimit := 0 } : Config).wf = false ∧
    ({ p0 with mismatchLimit := 2147483649 } : Config).wf = false := by decide

theorem test_wf_accepts_p0 : p0.wf = true := by decide

theorem test_operation_wf_refuses : (Operation.unmappedRead 0x034).wf = false ∧ (Operation.unmappedWrite 0x108 0).wf = false := by
  decide

theorem test_operation_wf_accepts : (Operation.unmappedRead 0x038).wf = true ∧ (Operation.unmappedWrite 0x084 5).wf = true := by
  decide

theorem test_asm_wf_refuses_edge : (AsmLine.edge .x 2 0).wf = false ∧ (AsmLine.edge .x 1 65536).wf = false := by decide

theorem test_asm_wf_refuses_tick : (AsmLine.tick 64).wf = false := by decide

theorem test_asm_wf_refuses_wr : (AsmLine.wr .x .pos (-2147483649)).wf = false ∧
    (AsmLine.wr .x .pos 4294967296).wf = false := by decide

theorem test_asm_wf_refuses_wrGlobal : (AsmLine.wrGlobal .ctrl (-2147483649)).wf = false ∧
    (AsmLine.wrGlobal .ctrl 4294967296).wf = false := by decide

/-! ### Decoding: words written out from spec/30_encoding.md R71 to R78 -/

/-- E1 to E5 of the vectors, and the three channels. -/
theorem test_decode_edge : decodeTableWord 32 0x10000008 = some (.edgeX true 0) ∧
    decodeTableWord 32 0x10000000 = some (.edgeX false 0) ∧ decodeTableWord 32 0x11234008 = some (.edgeX true 0x1234) ∧
    decodeTableWord 32 0x10000009 = some (.edgeYl true 0) ∧ decodeTableWord 32 0x1FFFF00A = some (.edgeYr true 0xFFFF) ∧
    decodeTableWord 32 0x18001002 = some (.edgeYr false 0x8001) := by decide

/-- E9. -/
theorem test_decode_ovf : decodeTableWord 32 0x20000000 = some .ovf := by decide

/-- E11 to E13. -/
theorem test_decode_tick : decodeTableWord 32 0x30000000 = some (.tick 0) ∧ decodeTableWord 32 0x3000003F = some (.tick 0b111111) ∧
    decodeTableWord 32 0x30000002 = some (.tick 0b000010) ∧ decodeTableWord 32 0x30000020 = some (.tick 0b100000) := by decide

/-- H1 to H14: the WRITE rows, the data word in bits 63:32. -/
theorem test_decode_write : decodeTableWord 64 0xFFFFFFFF40000000 = some (.wrPosX 0xFFFFFFFF) ∧
    decodeTableWord 64 0x000003E840000040 = some (.wrPosYl 1000) ∧
    decodeTableWord 64 0x8000000040000080 = some (.wrPosYr 0x80000000) ∧
    decodeTableWord 64 0x00004E2040000004 = some (.wrCmdX 20000) ∧
    decodeTableWord 64 0x0000000540000044 = some (.wrCmdYl 5) ∧ decodeTableWord 64 0x0000000240000010 = some (.wrModeX 2) ∧
    decodeTableWord 64 0x0000000140000050 = some (.wrModeYl 1) ∧ decodeTableWord 64 0x0000000140000090 = some (.wrModeYr 1) ∧
    decodeTableWord 64 0x0000000140000108 = some (.wrCtrl 1) := by decide

theorem test_decode_read_x : decodeTableWord 32 0x50000000 = some .rdPosX ∧ decodeTableWord 32 0x50000004 = some .rdCmdX ∧
    decodeTableWord 32 0x50000008 = some .rdErrX ∧ decodeTableWord 32 0x5000000C = some .rdEfferrX ∧
    decodeTableWord 32 0x50000010 = some .rdModeX ∧ decodeTableWord 32 0x50000014 = some .rdStatusX ∧
    decodeTableWord 32 0x50000018 = some .rdDriveX ∧ decodeTableWord 32 0x5000001C = some .rdIntegX ∧
    decodeTableWord 32 0x50000020 = some .rdSpeedX ∧ decodeTableWord 32 0x50000024 = some .rdPrevX ∧
    decodeTableWord 32 0x50000028 = some .rdStrikeX ∧ decodeTableWord 32 0x5000002C = some .rdEdge1X ∧
    decodeTableWord 32 0x50000030 = some .rdEdge2X ∧ decodeTableWord 32 0x50000034 = some .rdPeriodX := by decide

theorem test_decode_read_yl : decodeTableWord 32 0x50000040 = some .rdPosYl ∧ decodeTableWord 32 0x50000044 = some .rdCmdYl ∧
    decodeTableWord 32 0x50000048 = some .rdErrYl ∧ decodeTableWord 32 0x5000004C = some .rdEfferrYl ∧
    decodeTableWord 32 0x50000050 = some .rdModeYl ∧ decodeTableWord 32 0x50000054 = some .rdStatusYl ∧
    decodeTableWord 32 0x50000058 = some .rdDriveYl ∧ decodeTableWord 32 0x5000005C = some .rdIntegYl ∧
    decodeTableWord 32 0x50000060 = some .rdSpeedYl ∧ decodeTableWord 32 0x50000064 = some .rdPrevYl ∧
    decodeTableWord 32 0x50000068 = some .rdStrikeYl ∧ decodeTableWord 32 0x5000006C = some .rdEdge1Yl ∧
    decodeTableWord 32 0x50000070 = some .rdEdge2Yl ∧ decodeTableWord 32 0x50000074 = some .rdPeriodYl := by decide

theorem test_decode_read_yr : decodeTableWord 32 0x50000080 = some .rdPosYr ∧ decodeTableWord 32 0x50000084 = some .rdCmdYr ∧
    decodeTableWord 32 0x50000088 = some .rdErrYr ∧ decodeTableWord 32 0x5000008C = some .rdEfferrYr ∧
    decodeTableWord 32 0x50000090 = some .rdModeYr ∧ decodeTableWord 32 0x50000094 = some .rdStatusYr ∧
    decodeTableWord 32 0x50000098 = some .rdDriveYr ∧ decodeTableWord 32 0x5000009C = some .rdIntegYr ∧
    decodeTableWord 32 0x500000A0 = some .rdSpeedYr ∧ decodeTableWord 32 0x500000A4 = some .rdPrevYr ∧
    decodeTableWord 32 0x500000A8 = some .rdStrikeYr ∧ decodeTableWord 32 0x500000AC = some .rdEdge1Yr ∧
    decodeTableWord 32 0x500000B0 = some .rdEdge2Yr ∧ decodeTableWord 32 0x500000B4 = some .rdPeriodYr := by decide

/-- E17 among them. -/
theorem test_decode_read_global : decodeTableWord 32 0x50000100 = some .rdYstat ∧ decodeTableWord 32 0x50000104 = some .rdLrerr ∧
    decodeTableWord 32 0x50000108 = some .rdCtrl ∧ decodeTableWord 32 0x5000010C = some .rdOvfcnt ∧
    decodeTableWord 32 0x50000110 = some .rdPhase := by decide

/-- E19, E20, H4 and a WRITE to a read-only register: valid operations with no row. -/
theorem test_decode_unmapped : decode [0x50000038] = .operation (.unmappedRead 0x038) [] ∧
    decode [0x50000002] = .operation (.unmappedRead 0x002) [] ∧ decode [0x50000114] = .operation (.unmappedRead 0x114) [] ∧
    decode [0x40000084, 5] = .operation (.unmappedWrite 0x084 5) [] ∧
    decode [0x40000020, 5] = .operation (.unmappedWrite 0x020 5) [] := by decide

/-- E6 to E8, E10, E14, E16, E18, E21 to E23, and a WRITE without its data word. -/
theorem test_decode_refuses : decode [0x10000003] = .refused .channelThree ∧ decode [0x10000010] = .refused .mustBeZero ∧
    decode [0x10000004] = .refused .mustBeZero ∧ decode [0x20000001] = .refused .mustBeZero ∧
    decode [0x30000040] = .refused .mustBeZero ∧ decode [0x40001000] = .refused .mustBeZero ∧
    decode [0x50010000] = .refused .mustBeZero ∧ decode [0x00000000] = .refused .reservedKind ∧
    decode [0x60000000] = .refused .reservedKind ∧ decode [0xF0000000] = .refused .reservedKind ∧
    decode [0x40000000] = .refused .missingData := by decide

/-- The assembler's lines of R81 and R82. -/
theorem test_assemble : assemble (.edge .yl 1 0) = [0x10000009] ∧ assemble (.wr .x .pos (-1)) = [0x40000000, 0xFFFFFFFF] ∧
    assemble (.rd .yr .period) = [0x500000B4] ∧ assemble asmClear = [0x40000108, 1] ∧
    assemble (asmEnable .yr) = [0x40000090, 2] ∧ assembleAll (asmTicks 2) = [0x30000000, 0x30000000] := by decide

/-! ### One step of the machine -/

/-- The step takes the operation's words off the stream and runs it. -/
theorem test_step_runs_the_head : shows (step (deliver State.reset [0x40000040, 1000, 0x20000000]))
    (fun t => t.blk.yl.pos == 1000 && t.stimulus == [0x20000000#32]) = true := by decide

theorem test_step_refuses : step (deliver State.reset [0x60000000]) = .refused .reservedKind := rfl

/-- H4 and E20 through the step. -/
theorem test_step_bus_error : shows (step (deliver State.reset [0x40000084, 5])) (fun t => t.resp == some ⟨.err, none⟩ &&
    t.blk == State.reset.blk) = true ∧ shows (step (deliver State.reset [0x50000002]))
    (fun t => t.resp == some ⟨.err, some 0⟩ && t.blk == State.reset.blk) = true := by decide

theorem test_withFetchWord : shows (step (State.reset.withFetchWord 64 0x000003E840000040))
    (fun t => t.blk.yl.pos == 1000 && t.stimulus == []) = true := by decide

/-! ### EDGE and OVF (section 2.2 of the vectors) -/

/-- Q1, Q2. -/
theorem test_edgeX : shows (exec (.edgeX true 0) (xIs { idle with pos := 5 }))
    (fun t => t.blk.x.pos == 6 && t.blk.x.qdir == .forward) = true ∧
    shows (exec (.edgeX false 0) (xIs { idle with pos := 5 })) (fun t => t.blk.x.pos == 4 && t.blk.x.qdir == .reverse) = true := by
  decide

/-- Q5, Q6. -/
theorem test_edgeX_saturates : shows (exec (.edgeX true 0) (xIs { idle with pos := 0x7FFFFFFF }))
    (fun t => t.blk.x.pos == 0x7FFFFFFF && t.blk.x.qdir == .forward) = true ∧
    shows (exec (.edgeX false 0) (xIs { idle with pos := 0x80000000 }))
      (fun t => t.blk.x.pos == 0x80000000 && t.blk.x.qdir == .reverse) = true := by decide

/-- Q8, on the second Y channel: the older stamp moves, the overflow count is taken. -/
theorem test_edgeYr_stamps : shows (exec (.edgeYr true 0x0010)
      (machine p0 { Block.resetWith p0 with yr := { idle with edge2 := ⟨0x1234, 0⟩ }, ovfCnt := 2 }))
    (fun t => t.blk.yr.edge1 == ⟨0x1234, 0⟩ && t.blk.yr.edge2 == ⟨0x0010, 2⟩) = true := by decide

/-- Q15. -/
theorem test_edgeYl_only_its_channel : shows (exec (.edgeYl true 0) (xIs { idle with pos := 5 }))
    (fun t => t.blk.yl.pos == 1 && t.blk.x == { idle with pos := 5 } && t.blk.yr == idle) = true := by decide

/-- Q3 and Q12. -/
theorem test_edge_options : shows (exec (.edgeX false 0) (State.resetWith (withX { p0Channel with qdBHighFwd := false })))
    (fun t => t.blk.x.pos == 1 && t.blk.x.qdir == .forward) = true ∧
    shows (exec (.edgeX true 0x55) (State.resetWith (withX { p0Channel with tsEnable := false })))
      (fun t => t.blk.x.pos == 1 && t.blk.x.edge2 == ⟨0, 0⟩) = true := by decide

/-- Q13. -/
theorem test_ovf_wraps : shows (exec .ovf (machine p0 { Block.resetWith p0 with ovfCnt := 255 })) (fun t => t.blk.ovfCnt == 0) =
    true := by decide

/-! ### TICK (sections 2.3 to 2.8) -/

/-- T5: the switches are sampled, and nothing is overridden past the mode gate. -/
theorem test_tick_samples : shows (exec (.tick 0b111111) State.reset) (fun t => statusWord t.blk.x == 0x18 &&
    statusWord t.blk.yl == 0x18 && statusWord t.blk.yr == 0x18 && t.blk.x.pos == 0 && t.blk.tickPhase == 1) = true := by decide

/-- T6: the home switch wins. -/
theorem test_tick_home_wins : shows (exec (.tick 0b000011) (xIs { enabled with pos := 500, cmd := 1000 }))
    (fun t => t.blk.x.pos == 0) = true := by decide

/-- C1 and C4 of Control; C15's interlock; C2's deadband. -/
theorem test_control : (let c := control p0Channel none { enabled with cmd := 1000 }
    c.err == 1000 && c.integ == 20 && c.direction == .forward && c.setSpeed == 10 && c.pwmDuty == 55) = true ∧
    (let c := control p0Channel none { enabled with cmd := 993, pos := 1000 }
     c.err == 0xFFFFFFF9 && c.integ == 0 && c.direction == .reverse && c.setSpeed == 3 && c.pwmDuty == 49) = true ∧
    (let c := control p0Channel none { enabled with cmd := 1000, pos := 2000, direction := .forward, setSpeed := 30 }
     c.integ == 0xFFFFFFEC && c.direction == .brake && c.setSpeed == 0 && c.pwmDuty == 50) = true ∧
    (let c := control p0Channel none { enabled with cmd := 103, pos := 100, integ := 9 }
     c.integ == 0 && c.direction == .brake) = true := by decide

/-- O3 and O5 of the detector; V1 of the estimator. -/
theorem test_subrate : (let b := overloadCheck p0 .x { Block.resetWith p0 with x := { running with strike := 2 } }
    b.x.strike == 3 && b.x.error == .overload && b.x.mode == .disabled && b.x.direction == .brake && b.yerr == .none) = true ∧
    (let b := overloadCheck p0 .x { Block.resetWith p0 with x := { running with speed := 5, strike := 2 } }
     b.x.strike == 0 && b.x.error == .none) = true ∧
    (let c := estimate 10 p0Channel { idle with pos := 150, prev := 100 }
     c.speed == 500 && c.prev == 150) = true := by decide

/-- Log 10, from R125 and R204: a Manual channel whose outputs still drive is latched by the next TICK if that is a sub-rate one,
and braked by it otherwise. -/
theorem test_manual_between_ticks : (let s (phase : BitVec 10) := machine p0 { Block.resetWith p0 with
      x := { running with mode := .manual, strike := 2 }, tickPhase := phase }
    shows (exec (.tick 0) (s 9)) (fun t => t.blk.x.error == .overload) &&
      shows (exec (.tick 0) (s 8)) (fun t => t.blk.x.error == .none && t.blk.x.direction == .brake)) = true := by decide

/-- R176: the master latches on its third strike in a TICK whose divergence is at the limit; the slave keeps its mode. -/
theorem test_overload_before_mismatch : shows (exec (.tick 0) (machine p0 { Block.resetWith p0 with
      yl := { running with strike := 2, pos := 200 }, yr := enabled, tickPhase := 9 }))
    (fun t => t.blk.yerr == .overload && t.blk.yl.mode == .disabled && t.blk.yr.mode == .positionControl) = true := by decide

/-- Y1 and Y2: the trip at 200 and none at 199. -/
theorem test_mismatch_limit : shows (exec (.tick 0) (ysAre { idle with pos := 200 } idle))
    (fun t => t.blk.lr == 200 && t.blk.yerr == .lrMismatch) = true ∧
    shows (exec (.tick 0) (ysAre { idle with pos := 199 } idle)) (fun t => t.blk.lr == 199 && t.blk.yerr == .none) = true := by
  decide

/-- Y6: the slave's error is capped by the divergence. -/
theorem test_slave_capped : shows (exec (.tick 0) (ysAre { enabled with pos := 1000, cmd := 1030 } { enabled with pos := 950 }))
    (fun t => t.blk.lr == 50 && t.blk.yr.err == 80 && t.blk.yr.efferr == 50 && t.blk.yr.direction == .forward &&
      t.blk.yr.setSpeed == 10 && t.blk.yr.cmd == 1030) = true := by decide

/-! ### Host writes (section 2.9) -/

/-- H1. -/
theorem test_wrPosX : shows (exec (.wrPosX 0xFFFFFFFF) State.reset) (fun t => t.blk.x.pos == 0xFFFFFFFF && t.blk.x.prev == 0 &&
    t.resp == some ⟨.okay, none⟩) = true := by decide

/-- R145's worked example. -/
theorem test_wrPosYl : shows (exec (.wrPosYl 1000) State.reset) (fun t => t.blk.yl.pos == 1000 && t.blk.yr.pos == 0) = true := by
  decide

/-- H2. -/
theorem test_wrPosYr : shows (exec (.wrPosYr 0x80000000) State.reset) (fun t => s32 t.blk.yr.pos == -2147483648) = true := by
  decide

/-- H3. -/
theorem test_wrCmdX : shows (exec (.wrCmdX 20000) State.reset) (fun t => t.blk.x.cmd == 20000 && t.blk.yl.cmd == 0) = true := by
  decide

/-- R146: the slave's copy waits for the TICK. -/
theorem test_wrCmdYl : shows (exec (.wrCmdYl 1000) State.reset) (fun t => t.blk.yl.cmd == 1000 && t.blk.yr.cmd == 0) = true := by
  decide

/-- H5 to H8. -/
theorem test_wrModeX : shows (exec (.wrModeX 2) State.reset) (fun t => t.blk.x.mode == .positionControl) = true ∧
    errs State.reset (exec (.wrModeX 3) State.reset) = true ∧ errs State.reset (exec (.wrModeX 4) State.reset) = true ∧
    errs State.reset (exec (.wrModeX 0x80000002) State.reset) = true := by decide

/-- H9, H10. -/
theorem test_wrModeX_latched : errs (xIs { idle with error := .overload }) (exec (.wrModeX 2) (xIs { idle with error := .overload })) =
    true ∧ shows (exec (.wrModeX 0) (xIs { idle with error := .overload })) (fun t => t.resp == some ⟨.okay, none⟩) = true := by
  decide

/-- R147: Manual on the master, its own channel only. -/
theorem test_wrModeYl : shows (exec (.wrModeYl 1) State.reset) (fun t => t.blk.yl.mode == .manual && t.blk.yr.mode == .disabled) =
    true := by decide

/-- H11, H12. -/
theorem test_wrModeYr : (let s := machine p0 { Block.resetWith p0 with yerr := .lrMismatch }
    errs s (exec (.wrModeYr 1) s)) = true ∧
    shows (exec (.wrModeYr 2) (machine p0 { Block.resetWith p0 with yerr := .overload }))
      (fun t => t.blk.yr.mode == .positionControl) = true := by decide

/-- H13, H14. -/
theorem test_wrCtrl : shows (exec (.wrCtrl 0) State.reset) (fun t => t.blk == State.reset.blk && t.resp == some ⟨.okay, none⟩) =
    true ∧ errs State.reset (exec (.wrCtrl 2) State.reset) = true := by decide

/-- H20, H21. -/
theorem test_wrCtrl_clear : shows (exec (.wrCtrl 1) (machine p0 { Block.resetWith p0 with
      yl := { idle with pos := 1000 }, yr := { idle with pos := 700 }, x := { idle with error := .overload }, yerr := .lrMismatch }))
      (fun t => ystatWord t.blk == 0x102 && t.blk.x.error == .overload) = true ∧
    shows (exec (.wrCtrl 1) (machine p0 { Block.resetWith p0 with
      yl := { idle with pos := 1000 }, yr := { idle with pos := 950 }, x := { idle with error := .overload }, yerr := .lrMismatch,
      clrRefused := true }))
      (fun t => ystatWord t.blk == 0 && t.blk.x.error == .none) = true := by decide

/-! ### Host reads (section 2.9), each on a machine whose channels differ -/

/-- R150. -/
theorem test_rdPos : (let s := machine p0 { Block.resetWith p0 with x := { idle with pos := 0xFFFFFFFF }, yl := { idle with pos := 1000 }, yr := { idle with pos := 0x80000000 } }
    answers (exec .rdPosX s) 0xFFFFFFFF && answers (exec .rdPosYl s) 1000 && answers (exec .rdPosYr s) 0x80000000) = true := by
  decide

/-- R151. -/
theorem test_rdCmd : (let s := machine p0 { Block.resetWith p0 with x := { idle with cmd := 20000 }, yl := { idle with cmd := 5 }, yr := { idle with cmd := 6 } }
    answers (exec .rdCmdX s) 0x4E20 && answers (exec .rdCmdYl s) 5 && answers (exec .rdCmdYr s) 6) = true := by
  decide

/-- R152. -/
theorem test_rdErr : (let s := machine p0 { Block.resetWith p0 with x := { idle with err := 1 }, yl := { idle with err := 0xFFFFFFF9 }, yr := { idle with err := 3 } }
    answers (exec .rdErrX s) 1 && answers (exec .rdErrYl s) 0xFFFFFFF9 && answers (exec .rdErrYr s) 3) = true := by
  decide

/-- R153. -/
theorem test_rdEfferr : (let s := machine p0 { Block.resetWith p0 with x := { idle with efferr := 1 }, yl := { idle with efferr := 2 }, yr := { idle with efferr := 0xFFFFFF9C } }
    answers (exec .rdEfferrX s) 1 && answers (exec .rdEfferrYl s) 2 && answers (exec .rdEfferrYr s) 0xFFFFFF9C) = true := by
  decide

/-- R154. -/
theorem test_rdMode : (let s := machine p0 { Block.resetWith p0 with x := { idle with mode := .positionControl }, yl := { idle with mode := .manual }, yr := { idle with mode := .disabled } }
    answers (exec .rdModeX s) 2 && answers (exec .rdModeYl s) 1 && answers (exec .rdModeYr s) 0) = true := by
  decide

/-- H24 to H26. -/
theorem test_rdStatus : (let s := machine p0 { Block.resetWith p0 with x := { idle with mode := .positionControl, direction := .forward, qdir := .reverse, lastDir := .forward }, yl := { idle with error := .overload, lastDir := .forward }, yr := { idle with mode := .positionControl, direction := .reverse, limitSw := true } }
    answers (exec .rdStatusX s) 0x145 && answers (exec .rdStatusYl s) 0x120 && answers (exec .rdStatusYr s) 0x52) = true := by
  decide

/-- H27, H28 and reset. -/
theorem test_rdDrive : (let s := machine p0 { Block.resetWith p0 with x := { idle with setSpeed := 10, pwmDuty := 55 }, yl := { idle with setSpeed := 100, pwmDuty := 0 }, yr := { idle with setSpeed := 0 } }
    answers (exec .rdDriveX s) 0x370A && answers (exec .rdDriveYl s) 0x64 && answers (exec .rdDriveYr s) 0x3200) = true := by
  decide

/-- H32. -/
theorem test_rdInteg : (let s := machine p0 { Block.resetWith p0 with x := { idle with integ := 0xFFFFFFEC }, yl := { idle with integ := 20 }, yr := { idle with integ := 7 } }
    answers (exec .rdIntegX s) 0xFFFFFFEC && answers (exec .rdIntegYl s) 20 && answers (exec .rdIntegYr s) 7) = true := by
  decide

/-- R158. -/
theorem test_rdSpeed : (let s := machine p0 { Block.resetWith p0 with x := { idle with speed := 500 }, yl := { idle with speed := 0xFFFFFFFF }, yr := { idle with speed := 5 } }
    answers (exec .rdSpeedX s) 500 && answers (exec .rdSpeedYl s) 0xFFFFFFFF && answers (exec .rdSpeedYr s) 5) = true := by
  decide

/-- R159. -/
theorem test_rdPrev : (let s := machine p0 { Block.resetWith p0 with x := { idle with prev := 150 }, yl := { idle with prev := 0xFFFFFFFF }, yr := { idle with prev := 7 } }
    answers (exec .rdPrevX s) 150 && answers (exec .rdPrevYl s) 0xFFFFFFFF && answers (exec .rdPrevYr s) 7) = true := by
  decide

/-- R160. -/
theorem test_rdStrike : (let s := machine p0 { Block.resetWith p0 with x := { idle with strike := 3 }, yl := { idle with strike := 65535 }, yr := { idle with strike := 1 } }
    answers (exec .rdStrikeX s) 3 && answers (exec .rdStrikeYl s) 0xFFFF && answers (exec .rdStrikeYr s) 1) = true := by
  decide

/-- R161. -/
theorem test_rdEdge1 : (let s := machine p0 { Block.resetWith p0 with x := { idle with edge1 := ⟨0x1234, 0⟩ }, yl := { idle with edge1 := ⟨0xFFF0, 255⟩ }, yr := { idle with edge1 := ⟨1, 2⟩ } }
    answers (exec .rdEdge1X s) 0x1234 && answers (exec .rdEdge1Yl s) 0xFFFFF0 && answers (exec .rdEdge1Yr s) 0x20001) = true := by
  decide

/-- H29. -/
theorem test_rdEdge2 : (let s := machine p0 { Block.resetWith p0 with x := { idle with edge2 := ⟨0x10, 2⟩ }, yl := { idle with edge2 := ⟨0x5, 0⟩ }, yr := { idle with edge2 := ⟨0xFFFF, 255⟩ } }
    answers (exec .rdEdge2X s) 0x20010 && answers (exec .rdEdge2Yl s) 5 && answers (exec .rdEdge2Yr s) 0xFFFFFF) = true := by
  decide

/-- Q10, Q11's neighbour Q9 and Q8: a wrap, an out-of-order pair, an ordinary pair. -/
theorem test_rdPeriod : (let s := machine p0 { Block.resetWith p0 with x := { idle with edge1 := ⟨0xFFF0, 255⟩, edge2 := ⟨0x10, 0⟩ }, yl := { idle with edge1 := ⟨0x10, 0⟩, edge2 := ⟨0x5, 0⟩ }, yr := { idle with edge1 := ⟨0x1234, 0⟩, edge2 := ⟨0x10, 2⟩ } }
    answers (exec .rdPeriodX s) 0x20 && answers (exec .rdPeriodYl s) 0xFFFFF5 && answers (exec .rdPeriodYr s) 0x1EDDC) = true := by
  decide

/-- H30, H31, H33, R165 and R166. -/
theorem test_rdGlobals : (let s := machine p0 { Block.resetWith p0 with
      clrRefused := true, yerr := .lrMismatch, lr := 0xFFFFFF9C, ovfCnt := 255, tickPhase := 9 }
    answers (exec .rdYstat s) 0x102 && answers (exec .rdLrerr s) 0xFFFFFF9C && answers (exec .rdCtrl s) 0 &&
      answers (exec .rdOvfcnt s) 255 && answers (exec .rdPhase s) 9) = true := by decide

/-- R58: the bytes of a register word. -/
theorem test_busByte : (let b := (machine p0 { Block.resetWith p0 with yl := { idle with pos := 0x11223344 } }).blk
    busByte b 0x040 == some 0x44 && busByte b 0x043 == some 0x11 && busByte b 0x038 == none) = true := by decide

/-! ### Witnesses: a concrete case that meets every hypothesis of a statement -/

theorem witness_RegistersReadTheirResetValues : p0.wf = true := by decide

theorem witness_InvalidConfigurationDoesNotRun : (State.resetWith (withX { p0Channel with slewRate := 0 })).cfg.wf = false ∧
    (withX { p0Channel with slewRate := 0 }).wf = false ∧ p0.wf = true := by decide

theorem witness_ConfigurationNeverChanges : ∃ t, step (deliver State.reset [0x40000000, 7]) = .next t := ⟨_, rfl⟩

theorem witness_DecodedOperationSpellsItsWords : decode [0x40000084, 5, 9] = .operation (.unmappedWrite 0x084 5) [9] := by decide

/-- Words at the edges of R79: one refused and one not. -/
theorem witness_ReservedWordsAreRefused : (let s := deliver State.reset [0x60000000]
    s.cfg.wf = true ∧ s.stimulus = 0x60000000 :: []) ∧
    (let s := deliver State.reset [0x3000003F, 1]
    s.cfg.wf = true ∧ s.stimulus = 0x3000003F :: [1]) := by decide

theorem witness_StepRunsTheDecodedInstruction : (let s := deliver State.reset [0x40000108, 1, 2]
    s.cfg.wf = true ∧ decode s.stimulus = .operation (.instr (.wrCtrl 1)) [2]) := by decide

/-- One instruction of each kind of response. -/
theorem witness_EveryInstructionCompletes : ((encode (.tick 0)).headD 0).toNat / 2 ^ 28 ≤ 3 ∧
    ((encode (.wrCtrl 1)).headD 0).toNat / 2 ^ 28 = 4 ∧ ((encode .rdPhase).headD 0).toNat / 2 ^ 28 = 5 := by decide

theorem witness_StreamRunsInOrder : State.reset.cfg.wf = true := by decide

/-- Both levels, and both settings of TS_ENABLE. -/
theorem witness_EdgeCountsAndRotates : true = (State.reset.cfg.chan .yr).qdBHighFwd ∧ false ≠ (State.reset.cfg.chan .yr).qdBHighFwd ∧
    (State.reset.cfg.chan .yr).tsEnable = true ∧
    ((State.resetWith (withX { p0Channel with tsEnable := false })).cfg.chan .x).tsEnable = false := by decide

theorem witness_EdgeFrame : ∃ t, exec (Instr.edge .yl true 5) State.reset = .next t := ⟨_, rfl⟩

/-- Two Forward edges with a TICK between them, then a Reverse edge and an OVF. -/
theorem witness_EdgeRoundTripOfTheCount :
    (∀ i ∈ [Instr.edgeX true 3, .tick 0b111100, .edgeX true 9],
      (∃ cap, i = Instr.edge .x (State.reset.cfg.chan .x).qdBHighFwd cap) ∨ WritesNoPosition .x i) ∧
    ∀ i ∈ [Instr.edgeX false 1, .ovf],
      (∃ cap, i = Instr.edge .x (!(State.reset.cfg.chan .x).qdBHighFwd) cap) ∨ WritesNoPosition .x i := by
  refine ⟨?_, ?_⟩
  · simp only [List.forall_mem_cons, List.not_mem_nil, false_imp_iff, implies_true, and_true]
    refine ⟨.inl ⟨3, rfl⟩, .inr ⟨fun _ _ => by simp [Instr.edge], fun _ => by simp [Instr.wrPos], fun sw h => ?_⟩, .inl ⟨9, rfl⟩⟩
    cases h
    exact ⟨rfl, rfl⟩
  · simp only [List.forall_mem_cons, List.not_mem_nil, false_imp_iff, implies_true, and_true]
    exact ⟨.inl ⟨1, rfl⟩, .inr ⟨fun _ _ => by simp [Instr.edge], fun _ => by simp [Instr.wrPos], fun _ h => by cases h⟩⟩

/-- At the last phase before the wrap and at the one before it. -/
theorem witness_TickSamplesSwitchesAndAdvancesPhase : p0.wf = true ∧
    (machine p0 { Block.resetWith p0 with tickPhase := 9 }).blk.PhaseOk p0 ∧
    (machine p0 { Block.resetWith p0 with tickPhase := 8 }).blk.PhaseOk p0 := by decide

theorem witness_TickFrame : ∃ t, exec (.tick 0b101010) State.reset = .next t ∧ (t.blk.chan .yl).mode ≠ .positionControl :=
  ⟨_, rfl, by decide⟩

/-- Phase 8 of 10, and phase 9 with the master at one strike, which stays unlatched, and at two, which latches, each with the
divergence one below the limit; and a reset machine with `SUBRATE_N` = 1. -/
theorem witness_TickRunsTheControllers :
    (let s (phase : BitVec 10) (n : BitVec 16) := machine p0 { Block.resetWith p0 with
      yl := { running with pos := 199, strike := n }, tickPhase := phase }
    divergenceOf (s 8 1).blk < p0.mismatchLimit ∧ ¬ OnSubrate (s 8 1) ∧ OnSubrate (s 9 1) ∧
      (∃ t, exec (.tick 0) (s 9 1) = .next t ∧ (t.blk.chan .yl).error = ((s 9 1).blk.chan .yl).error) ∧
      (∃ t, exec (.tick 0) (s 9 2) = .next t ∧ (t.blk.chan .yl).error ≠ ((s 9 2).blk.chan .yl).error) ∧
      ({ p0 with subrateN := 1 } : Config).wf = true ∧ OnSubrate (State.resetWith { p0 with subrateN := 1 })) :=
  ⟨by decide, by unfold OnSubrate; decide, by unfold OnSubrate; decide, ⟨_, rfl, by decide⟩, ⟨_, rfl, by decide⟩, by decide,
    by unfold OnSubrate; decide⟩

/-- Both sides of the sub-rate. -/
theorem witness_SubrateTickMeasuresSpeed :
    (let s := machine p0 { Block.resetWith p0 with tickPhase := 9 }
    s.blk.tickPhase.toNat + 1 = s.cfg.subrateN ∧ ∃ t, exec (.tick 0) s = .next t) ∧
    ¬ State.reset.blk.tickPhase.toNat + 1 = State.reset.cfg.subrateN ∧ ∃ t, exec (.tick 0) State.reset = .next t :=
  ⟨⟨by decide, _, rfl⟩, by decide, _, rfl⟩

/-- A stalled channel one below the floor, one at the floor, and a latched one, on a sub-rate tick. -/
theorem witness_SubrateTickCountsStrikes :
    (let s (c : Channel) := machine p0 { Block.resetWith p0 with x := c, tickPhase := 9 }
    (s running).blk.tickPhase.toNat + 1 = p0.subrateN ∧ (∃ t, exec (.tick 0) (s running) = .next t) ∧ running.error = .none ∧
      (running.direction ≠ .brake ∧ running.direction = running.lastDir ∧ running.setSpeed.toNat = p0Channel.maxSpeed ∧
        ({ running with speed := 4 } : Channel).speed.toNat < p0Channel.speedFloor) ∧
      ¬ ({ running with speed := 5 } : Channel).speed.toNat < p0Channel.speedFloor ∧
      ({ running with error := .overload } : Channel).error = .overload) :=
  ⟨by decide, ⟨_, rfl⟩, by decide, by decide, by decide, by decide⟩

/-- A first Y fault, a Y fault already held, and the X channel. -/
theorem witness_OverloadLatchEntry : Chan.yl ≠ .x ∧ (Block.resetWith p0).yerr = .none ∧
    ({ Block.resetWith p0 with yerr := .lrMismatch } : Block).yerr ≠ .none := by decide

/-- The master at two strikes latches on the third: one below the mismatch limit with no Y fault held, and at the limit with one
held, beside a slave that does not latch. -/
theorem witness_OverloadTakesEffectInItsTick :
    (let s (p : Word) (y : YError) := machine p0 { Block.resetWith p0 with
      yl := { running with strike := 2, pos := p }, yr := enabled, yerr := y, tickPhase := 9 }
    (∃ t, exec (.tick 0) (s 199 .none) = .next t ∧ ((s 199 .none).blk.chan .yl).error = .none ∧
      (t.blk.chan .yl).error = .overload ∧ divergenceOf (s 199 .none).blk < p0.mismatchLimit) ∧
    ∃ t, exec (.tick 0) (s 200 .lrMismatch) = .next t ∧ ((s 200 .lrMismatch).blk.chan .yl).error = .none ∧
      (t.blk.chan .yl).error = .overload ∧ p0.mismatchLimit ≤ divergenceOf (s 200 .lrMismatch).blk ∧
      (t.blk.chan .yr).error = ((s 200 .lrMismatch).blk.chan .yr).error) :=
  ⟨⟨_, rfl, by decide, by decide, by decide⟩, _, rfl, by decide, by decide, by decide, by decide⟩

/-- Two speeds, one short of the limit of three, the floor's own speed after them; and three speeds. -/
theorem witness_StrikesAccumulateAndReset :
    (let b : Block := { Block.resetWith p0 with x := running }
    p0.wf = true ∧ (b.chan .x).error = .none ∧ (b.chan .x).direction ≠ .brake ∧ (b.chan .x).lastDir = (b.chan .x).direction ∧
      (b.chan .x).setSpeed.toNat = (p0.chan .x).maxSpeed ∧ (b.chan .x).strike = 0 ∧
      (∀ v ∈ [0#32, 4#32, 4#32], v.toNat < (p0.chan .x).speedFloor) ∧ [0#32, 4#32].length < (p0.chan .x).strikeLimit ∧
      [0#32, 4#32, 4#32].length = (p0.chan .x).strikeLimit ∧ (p0.chan .x).speedFloor ≤ (5#32).toNat) :=
  ⟨by decide, rfl, by decide, rfl, rfl, rfl, by simp [p0, p0Channel, Config.chan], by decide, rfl, by decide⟩

/-- A Manual channel, in a tick that does not trip (199) and in one that does (200). -/
theorem witness_ModeGateBrakes :
    (({ idle with mode := .manual } : Channel).mode ≠ .positionControl ∧
      divergenceOf (ysAre { idle with pos := 199 } idle).blk < p0.mismatchLimit ∧
      p0.mismatchLimit ≤ divergenceOf (ysAre { idle with pos := 200 } idle).blk) := by decide

/-- Without a cap, and with the most negative one. -/
theorem witness_EnabledControllerComputesItsError : p0Channel.wf = true ∧ enabled.mode = .positionControl ∧
    (∀ v ∈ (none : Option Int), InI32 v) ∧ ∀ v ∈ some (-2147483648 : Int), InI32 v :=
  ⟨by decide, by decide, by simp, by simp [InI32]⟩

/-- An error of 3, the deadband's own value (C2). -/
theorem witness_DeadbandBrakes : p0Channel.wf = true ∧ enabled.mode = .positionControl ∧ (∀ v ∈ (none : Option Int), InI32 v) ∧
    (control p0Channel none { enabled with cmd := 103, pos := 100 }).efferr.toInt.natAbs ≤ p0Channel.deadband :=
  ⟨by decide, by decide, by simp, by decide⟩

/-- An error of 4, one past the deadband (C3), with the integral term on and off. -/
theorem witness_IntegralAccumulates : p0Channel.wf = true ∧ ({ p0Channel with gainI := 0 } : ChannelConfig).wf = true ∧
    enabled.mode = .positionControl ∧ (∀ v ∈ (none : Option Int), InI32 v) ∧ p0Channel.gainI ≠ 0 ∧
    p0Channel.deadband < (control p0Channel none { enabled with cmd := 104, pos := 100 }).efferr.toInt.natAbs ∧
    p0Channel.deadband < (control { p0Channel with gainI := 0 } none { enabled with cmd := 104, pos := 100 }).efferr.toInt.natAbs :=
  ⟨by decide, by decide, by decide, by simp, by decide, by decide, by decide⟩

/-- A case of each clause: C19's zero target, both interlocks, and both drives. -/
theorem witness_OutputFollowsTheControlSum :
    (let ec (k : ChannelConfig) (c : Channel) := (control k none c).integ.toInt +
      Int.tdiv ((control k none c).efferr.toInt * k.gainP) k.gainPFactor
    let far (k : ChannelConfig) (c : Channel) := k.deadband < (control k none c).efferr.toInt.natAbs
    let up : Channel := { enabled with cmd := 1000 }
    let down : Channel := { enabled with cmd := 1000, pos := 2000 }
    let still : ChannelConfig := { p0Channel with maxSpeed := 0 }
    (still.wf = true ∧ far still up ∧ min (ec still up).natAbs still.maxSpeed = 0) ∧
      (far p0Channel up ∧ 0 < ec p0Channel up ∧ min (ec p0Channel up).natAbs p0Channel.maxSpeed ≠ 0 ∧ up.direction ≠ .reverse) ∧
      (far p0Channel down ∧ ec p0Channel down < 0 ∧ down.direction ≠ .forward) ∧
      0 < ec p0Channel { up with direction := .reverse } ∧ ec p0Channel { down with direction := .forward } < 0) := by decide

theorem witness_ControllerFrame : idle.mode ≠ .positionControl := by decide

theorem witness_AppliedSpeedRisesByAtMostTheSlewRate : ∃ t,
    step (deliver (xIs { enabled with cmd := 1000 }) [0x30000000]) = .next t := ⟨_, rfl⟩

theorem witness_NoDirectReversal : ∃ t,
    step (deliver (xIs { enabled with cmd := 1000, pos := 2000, direction := .forward, setSpeed := 30 }) [0x30000000]) = .next t :=
  ⟨_, rfl⟩

theorem witness_TickRecordsTheDivergence : ∃ t, exec (.tick 0) (ysAre { idle with pos := 0x7FFFFFFF } { idle with pos := 0x80000000 }) =
    .next t := ⟨_, rfl⟩

/-- The limit's own divergence: with no fault held and none arising, with one held (Y1, Y10), and with none held and the master
latching in the tick, the slave not. -/
theorem witness_MismatchTripsTheYAxis :
    (let s := ysAre { idle with pos := 200 } idle
    s.cfg.mismatchLimit ≤ divergenceOf s.blk ∧ s.blk.yerr = .none ∧
      ∃ t, exec (.tick 0) s = .next t ∧ t.blk.yl.error = s.blk.yl.error ∧ t.blk.yr.error = s.blk.yr.error) ∧
    (let s := machine p0 { Block.resetWith p0 with yl := { idle with pos := 1000 }, yr := { enabled with pos := 700 }, yerr := .overload }
    s.cfg.mismatchLimit ≤ divergenceOf s.blk ∧ s.blk.yerr ≠ .none ∧
      ∃ t, exec (.tick 0) s = .next t ∧ (t.blk.chan .yr).error = (s.blk.chan .yr).error) ∧
    (let s := machine p0 { Block.resetWith p0 with yl := { running with strike := 2, pos := 200 }, yr := enabled, tickPhase := 9 }
    s.cfg.mismatchLimit ≤ divergenceOf s.blk ∧ s.blk.yerr = .none ∧ ∃ t, exec (.tick 0) s = .next t ∧
      (t.blk.chan .yl).error ≠ (s.blk.chan .yl).error ∧ (t.blk.chan .yr).error = (s.blk.chan .yr).error) :=
  ⟨⟨by decide, by decide, _, rfl, by decide, by decide⟩, ⟨by decide, by decide, _, rfl, by decide⟩, by decide, by decide, _, rfl,
    by decide, by decide⟩

/-- One below the limit, every channel enabled. -/
theorem witness_SlaveErrorIsCappedByDivergence :
    (let s := machine p0 { Block.resetWith p0 with x := enabled, yl := { enabled with pos := 199 }, yr := enabled }
    s.cfg.wf = true ∧ divergenceOf s.blk < s.cfg.mismatchLimit ∧
      ∃ t, exec (.tick 0) s = .next t ∧ t.blk.yr.mode = .positionControl ∧ t.blk.yl.mode = .positionControl ∧
        t.blk.x.mode = .positionControl) :=
  ⟨by decide, by decide, _, rfl, by decide, by decide, by decide⟩

/-- Y8, Y9 and a trip. -/
theorem witness_SlaveCommandFollowsTheMaster :
    (let s (l r : Channel) := ysAre l r
    (∃ t, exec (.tick 0) (s { idle with cmd := 20000 } idle) = .next t ∧ t.blk.yr.mode ≠ .positionControl) ∧
      (∃ t, exec (.tick 0) (s { enabled with cmd := 20000 } enabled) = .next t ∧ t.blk.yr.mode = .positionControl) ∧
      divergenceOf (s { enabled with cmd := 20000 } enabled).blk < p0.mismatchLimit ∧
      (∃ t, exec (.tick 0) (s { enabled with pos := 200 } enabled) = .next t) ∧
      p0.mismatchLimit ≤ divergenceOf (s { enabled with pos := 200 } enabled).blk ∧ p0.wf = true) :=
  ⟨⟨_, rfl, by decide⟩, ⟨_, rfl, by decide⟩, by decide, ⟨_, rfl⟩, by decide, by decide⟩

/-- Every value at a boundary of the clauses, a locked and an unlocked channel. -/
theorem witness_WriteModeSetsALegalMode : (0#32).toNat = 0 ∧ (1#32).toNat = 1 ∧ (2#32).toNat = 2 ∧ 3 ≤ (3#32).toNat ∧
    ¬ ((State.reset.blk.chan .yr).error = .overload ∨ (Chan.yr ≠ .x ∧ State.reset.blk.yerr = .lrMismatch)) ∧
    (let s := machine p0 { Block.resetWith p0 with yerr := .lrMismatch }
    (s.blk.chan .yr).error = .overload ∨ (Chan.yr ≠ .x ∧ s.blk.yerr = .lrMismatch)) := by decide

/-- A persisting divergence at the limit, and one below it. -/
theorem witness_WriteCtrlClearsAllOrNothing :
    (let s (p : Word) := machine p0 { Block.resetWith p0 with yl := { idle with pos := p }, yerr := .lrMismatch }
    (0#32).toNat = 0 ∧ (1#32).toNat = 1 ∧ 2 ≤ (2#32).toNat ∧
      ((s 200).blk.yerr = .lrMismatch ∧ (s 200).cfg.mismatchLimit ≤ divergenceOf (s 200).blk) ∧
      ¬ ((s 199).blk.yerr = .lrMismatch ∧ (s 199).cfg.mismatchLimit ≤ divergenceOf (s 199).blk)) := by decide

/-- 1000 and 801: one below the limit. -/
theorem witness_RecoveryIsClearThenMode : (sat32 ((1000#32).toInt - (801#32).toInt)).natAbs < State.reset.cfg.mismatchLimit := by decide

theorem witness_WritesAreIdempotent : isWrite (.wrCtrl 1) = true ∧ ∃ t, exec (.wrCtrl 1) State.reset = .next t :=
  ⟨by decide, _, rfl⟩

/-- The addresses where the clauses meet. -/
theorem witness_ReadsAnswerByAddress : State.reset.cfg.wf = true ∧
    (∀ a ∈ [0x038#12, 0x03C#12, 0x03F#12, 0x078#12, 0x07F#12, 0x0B8#12, 0x0FF#12, 0x114#12, 0xFFF#12, 0x001#12], NotReadable a) ∧
    (∀ a ∈ [0x000#12, 0x034#12, 0x040#12, 0x074#12, 0x080#12, 0x0B4#12, 0x100#12, 0x110#12], ¬ NotReadable a) ∧
    (deliver State.reset [0x50000034]).stimulus = BitVec.ofNat 32 (0x50000000 + (0x034#12).toNat) :: [] :=
  ⟨by decide, by simp [NotReadable], by simp [NotReadable], rfl⟩

/-- The slave's CMD, a read-only register, a misaligned address beside a writable one. -/
theorem witness_WritesOutsideTheMapAnswerErr : State.reset.cfg.wf = true ∧
    (∀ a ∈ [0x084#12, 0x014#12, 0x001#12, 0x10C#12, 0xFFF#12], ¬ Writable a) ∧
    (deliver State.reset [0x40000084, 5]).stimulus = BitVec.ofNat 32 (0x40000000 + (0x084#12).toNat) :: 5 :: [] :=
  ⟨by decide, by simp [Writable], rfl⟩

/-- Each of the three writers. -/
theorem witness_PositionHasThreeWriters :
    (∃ t, exec (.edgeX true 0) State.reset = .next t ∧ (t.blk.chan .x).pos ≠ (State.reset.blk.chan .x).pos) ∧
    (∃ t, exec (.wrPosX 7) State.reset = .next t ∧ (t.blk.chan .x).pos ≠ (State.reset.blk.chan .x).pos) ∧
    (∃ t, exec (.tick 0b000010) (xIs enabled) = .next t ∧ (t.blk.chan .x).pos ≠ ((xIs enabled).blk.chan .x).pos) :=
  ⟨⟨_, rfl, by decide⟩, ⟨_, rfl, by decide⟩, _, rfl, by decide⟩

theorem witness_OnlyWriteModeEnables : ∃ t, exec (.wrModeYl 1) State.reset = .next t ∧
    (t.blk.chan .yl).mode ≠ (State.reset.blk.chan .yl).mode ∧ (t.blk.chan .yl).mode ≠ .disabled := ⟨_, rfl, by decide, by decide⟩

theorem witness_OverloadHoldsUntilClear : ∃ t, exec (.wrCtrl 1) (xIs { idle with error := .overload }) = .next t ∧
    ((xIs { idle with error := .overload }).blk.chan .x).error = .overload ∧ (t.blk.chan .x).error = .none :=
  ⟨_, rfl, by decide, by decide⟩

theorem witness_FirstYFaultWins : (let s := machine p0 { Block.resetWith p0 with yerr := .overload, yl := { idle with pos := 300 } }
    s.blk.yerr ≠ .none ∧ ∃ t, exec (.tick 0) s = .next t) := ⟨by decide, _, rfl⟩

/-- Two machines that differ in the Y records, the Y faults and the stream. -/
theorem witness_XDoesNotDependOnY :
    (let s := xIs enabled
    let s' := { machine p0 { s.blk with yl := { running with pos := 500 }, yerr := .lrMismatch } with stimulus := [1] }
    (∀ d, Instr.tick 0 ≠ .wrCtrl d) ∧ s.cfg.x = s'.cfg.x ∧ s.cfg.subrateN = s'.cfg.subrateN ∧ s.blk.x = s'.blk.x ∧
      s.blk.ovfCnt = s'.blk.ovfCnt ∧ s.blk.tickPhase = s'.blk.tickPhase ∧ s.blk.yl ≠ s'.blk.yl ∧
      (∃ t, exec (.tick 0) s = .next t) ∧ ∃ t, exec (.tick 0) s' = .next t) :=
  ⟨fun _ => by simp, rfl, rfl, rfl, rfl, rfl, by decide, ⟨_, rfl⟩, _, rfl⟩

/-- A driving machine whose next TICK drives on. -/
theorem witness_EveryStepKeepsTheDriveRule : (let s := deliver (xIs { running with cmd := 1000 }) [0x30000000]
    p0.wf = true ∧ (∀ m ∈ [Chan.x, .yl, .yr], (s.blk.chan m).DriveOk (s.cfg.chan m)) ∧ ∃ t, step s = .next t) :=
  ⟨by decide, by decide, _, rfl⟩

/-- An integral at its limit. -/
theorem witness_EveryStepKeepsTheIntegralBound : (let s := deliver (xIs { running with cmd := 1000, integ := 20 }) [0x30000000]
    p0.wf = true ∧ (∀ m ∈ [Chan.x, .yl, .yr], (s.blk.chan m).IntegralOk (s.cfg.chan m)) ∧ ∃ t, step s = .next t) :=
  ⟨by decide, by decide, _, rfl⟩

/-- Speed and duty at their limits, the divider at its last value. -/
theorem witness_EveryStepKeepsTheOutputRanges :
    (let s := deliver (machine p0 { Block.resetWith p0 with x := { running with cmd := 1000 }, tickPhase := 9 }) [0x30000000]
    (∀ m ∈ [Chan.x, .yl, .yr], (s.blk.chan m).RangesOk (s.cfg.chan m)) ∧ s.blk.PhaseOk s.cfg ∧ ∃ t, step s = .next t) :=
  ⟨by decide, by decide, _, rfl⟩

/-- A latched master beside an unlatched slave, before a TICK. -/
theorem witness_EveryStepKeepsTheLatches :
    (let s := deliver (machine p0 { Block.resetWith p0 with
      yl := { idle with error := .overload, strike := 3, lastDir := .forward }, yr := enabled, yerr := .overload }) [0x30000000]
    (∀ m ∈ [Chan.x, .yl, .yr], (s.blk.chan m).LatchOk (s.cfg.chan m)) ∧ s.blk.YLatchOk ∧ ∃ t, step s = .next t) :=
  ⟨by decide, by decide, _, rfl⟩

theorem witness_ResetIsSafe : p0.wf = true := by decide

/-- A driving machine that meets every invariant, on every channel, and runs one step. -/
theorem witness_EveryRunStaysSafe : (let s := deliver (xIs { running with cmd := 1000 }) [0x30000000]
    s.cfg.wf = true ∧ (∀ m ∈ [Chan.x, .yl, .yr], (s.blk.chan m).DriveOk (s.cfg.chan m) ∧
      (s.blk.chan m).IntegralOk (s.cfg.chan m) ∧ (s.blk.chan m).RangesOk (s.cfg.chan m) ∧ (s.blk.chan m).LatchOk (s.cfg.chan m) ∧
      (s.blk.chan m).OptionsOk (s.cfg.chan m)) ∧ s.blk.PhaseOk s.cfg ∧ s.blk.YLatchOk ∧
    ∃ t, Host.Core.run Sys2Proof.core 1 s = .next t) :=
  ⟨by decide, by decide, by decide, by decide, _, rfl⟩

end Sys2Proof.Tests
end

/-! ## Scope and configuration (spec/00_scope.md)

How an operation and a step end, which configurations are valid, and what the Overload latch writes: the lemmas first, the
statements of the family at the end. -/

namespace Sys2Proof.Machine

/-! ### The WRITEs that can answer the error response -/

/-- Everything a WR_MODE can do: store a legal mode in a channel that no latch holds, or answer ERR (R147). -/
theorem writeMode_cases (m : Chan) (d : Word) (s : State) :
    (∃ v, field d 2 30 = 0 ∧ modeOfCode (field d 0 2) = some v ∧ (v = .disabled ∨ modeLocked m s.blk = false) ∧
        writeMode m d s = s.finishWrite (s.blk.setChan m { s.blk.chan m with mode := v })) ∨
      ((field d 2 30 ≠ 0 ∨ modeOfCode (field d 0 2) = none ∨
          ∃ v, modeOfCode (field d 0 2) = some v ∧ v ≠ .disabled ∧ modeLocked m s.blk = true) ∧
        writeMode m d s = busErrorWrite s) := by
  unfold writeMode
  split
  next hr => exact .inr ⟨.inl hr, rfl⟩
  next hr =>
    split
    next hv => exact .inr ⟨.inr (.inl hv), rfl⟩
    next v hv =>
      split
      next hl => exact .inr ⟨.inr (.inr ⟨v, hv, hl⟩), rfl⟩
      next hl =>
        have hfree : v = .disabled ∨ modeLocked m s.blk = false := by
          rwa [not_and_or, not_not, Bool.not_eq_true] at hl
        exact .inl ⟨v, not_not.1 hr, hv, hfree, rfl⟩

/-- Everything a WR_CTRL can do: answer ERR for a reserved bit, run CLEAR, or nothing (R148). -/
theorem writeCtrl_cases (d : Word) (s : State) :
    (field d 1 31 ≠ 0 ∧ writeCtrl d s = busErrorWrite s) ∨
      (field d 1 31 = 0 ∧ d.getLsbD 0 = true ∧ writeCtrl d s = s.finishWrite (clearFaults s.cfg s.blk)) ∨
      (field d 1 31 = 0 ∧ d.getLsbD 0 = false ∧ writeCtrl d s = s.finishWrite s.blk) := by
  unfold writeCtrl
  split
  next hr => exact .inl ⟨hr, rfl⟩
  next hr =>
    have hz : field d 1 31 = 0 := not_not.1 hr
    split
    next hc => exact .inr (.inl ⟨hz, hc, rfl⟩)
    next hc => exact .inr (.inr ⟨hz, by simpa using hc, rfl⟩)

/-! ### How an operation and a step end -/

/-- Every row of the map completes: it writes the block and the response, and nothing else of the machine (R62, R190). -/
theorem exec_finish (i : Instr) (s : State) : ∃ b r, exec i s = s.finish b r := by
  rcases Instr.shape i with ⟨m, l, cap, rfl⟩ | rfl | ⟨sw, rfl⟩ | ⟨m, d, rfl⟩ | ⟨d, rfl⟩ | ⟨d, rfl⟩ | ⟨m, d, rfl⟩ | ⟨d, rfl⟩ |
    ⟨m, r, rfl⟩ | ⟨g, rfl⟩
  · exact ⟨_, _, exec_edge m l cap s⟩
  · exact ⟨_, _, rfl⟩
  · exact ⟨_, _, exec_tick sw s⟩
  · exact ⟨_, _, exec_wrPos m d s⟩
  · exact ⟨_, _, rfl⟩
  · exact ⟨_, _, rfl⟩
  · rw [exec_wrMode]
    rcases writeMode_cases m d s with ⟨v, -, -, -, h⟩ | ⟨-, h⟩ <;> exact ⟨_, _, h⟩
  · rcases writeCtrl_cases d s with ⟨-, h⟩ | ⟨-, -, h⟩ | ⟨-, -, h⟩ <;> exact ⟨_, _, h⟩
  · exact ⟨_, _, exec_rd m r s⟩
  · exact ⟨_, _, exec_rdGlobal g s⟩

/-- An access with no rule completes as well, with the error response (R169). -/
theorem runOperation_finish (op : Operation) (s : State) : ∃ b r, runOperation op s = s.finish b r := by
  cases op with
  | instr i => exact exec_finish i s
  | unmappedRead a => exact ⟨_, _, rfl⟩
  | unmappedWrite a d => exact ⟨_, _, rfl⟩

theorem step_invalid {s : State} (h : s.cfg.wf = false) : step s = .refused .invalidConfiguration := by
  simp only [step, stepOnce, h]

theorem step_valid {s : State} (h : s.cfg.wf = true) : step s = fetchAndRun s := by
  simp only [step, stepOnce, h]

/-- Everything a step can do (R10, R79, R188). -/
theorem step_cases (s : State) :
    (s.cfg.wf = false ∧ step s = .refused .invalidConfiguration) ∨
      (s.cfg.wf = true ∧
        ((decode s.stimulus = .nothing ∧ step s = .next s) ∨
          (∃ why, decode s.stimulus = .refused why ∧ step s = .refused (refusalOf why)) ∨
          ∃ op rest, decode s.stimulus = .operation op rest ∧ step s = runOperation op { s with stimulus := rest })) := by
  cases hwf : s.cfg.wf with
  | false => exact .inl ⟨rfl, step_invalid hwf⟩
  | true =>
    refine .inr ⟨rfl, ?_⟩
    rw [step_valid hwf, fetchAndRun]
    cases decode s.stimulus with
    | nothing => exact .inl ⟨rfl, rfl⟩
    | refused why => exact .inr (.inl ⟨why, rfl, rfl⟩)
    | operation op rest => exact .inr (.inr ⟨op, rest, rfl, rfl⟩)

/-- A step that answers a next state changes the block, the response and the stream at most. -/
theorem step_next_fields {s t : State} (h : step s = .next t) :
    t = { s with blk := t.blk, resp := t.resp, stimulus := t.stimulus } := by
  rcases step_cases s with ⟨-, hs⟩ | ⟨-, ⟨-, hs⟩ | ⟨why, -, hs⟩ | ⟨op, rest, -, hs⟩⟩ <;> rw [hs] at h
  · cases h
  · cases h; rfl
  · cases h
  · obtain ⟨b, r, hr⟩ := runOperation_finish op { s with stimulus := rest }
    rw [hr, finish_eq] at h
    cases h; rfl

/-! ### The ranges of a configuration -/

@[simp] theorem isI32_iff (v : Int) : isI32 v = true ↔ InI32 v := by simp [isI32, InI32]

@[simp] theorem isI16_iff (v : Int) : isI16 v = true ↔ -(2 ^ 15 : Int) ≤ v ∧ v < 2 ^ 15 := by
  simp only [isI16, Bool.and_eq_true, decide_eq_true_eq]; omega

@[simp] theorem inRange_iff (v lo hi : Nat) : inRange v lo hi = true ↔ lo ≤ v ∧ v ≤ hi := by simp [inRange]

theorem positionsOk_iff (c : ChannelConfig) :
    c.positionsOk = true ↔ InI32 c.homeOffset ∧ InI32 c.homePos ∧ InI32 c.limitPos := by
  simp only [ChannelConfig.positionsOk, Bool.and_eq_true, isI32_iff, and_assoc]

theorem limitsOk_iff (c : ChannelConfig) :
    c.limitsOk = true ↔ 2 * c.boundary ≤ c.length ∧ c.length ≤ 2 ^ 31 - 1 ∧ c.deadband ≤ 2 ^ 31 - 1 := by
  simp only [ChannelConfig.limitsOk, Bool.and_eq_true, decide_eq_true_eq]; omega

theorem gainsOk_iff (c : ChannelConfig) :
    c.gainsOk = true ↔ c.gainP < 2 ^ 16 ∧ 1 ≤ c.gainPFactor ∧ c.gainPFactor < 2 ^ 16 ∧ c.gainI < 2 ^ 16 ∧
      c.integralLimit ≤ 2 ^ 31 - 1 := by
  simp only [ChannelConfig.gainsOk, Bool.and_eq_true, decide_eq_true_eq, inRange_iff]; omega

theorem driveOk_iff (c : ChannelConfig) :
    c.driveOk = true ↔ c.maxSpeed ≤ 100 ∧ 1 ≤ c.slewRate ∧ c.slewRate ≤ 100 ∧
      -(2 ^ 15 : Int) ≤ c.dutyFwdK ∧ c.dutyFwdK < 2 ^ 15 ∧ -(2 ^ 15 : Int) ≤ c.dutyRevK ∧ c.dutyRevK < 2 ^ 15 ∧
      1 ≤ c.dutyKDen ∧ c.dutyKDen < 2 ^ 16 ∧ c.dutyFwdOffset ≤ 100 ∧ c.dutyRevOffset ≤ 100 ∧ c.dutyBrake ≤ 100 := by
  simp only [ChannelConfig.driveOk, Bool.and_eq_true, decide_eq_true_eq, inRange_iff, isI16_iff]; omega

theorem stallOk_iff (c : ChannelConfig) :
    c.stallOk = true ↔ 1 ≤ c.mmPerRev ∧ c.mmPerRev < 2 ^ 16 ∧ 1 ≤ c.ticksPerRev ∧ c.ticksPerRev < 2 ^ 16 ∧
      c.speedFloor < 2 ^ 32 ∧ 1 ≤ c.strikeLimit ∧ c.strikeLimit < 2 ^ 16 := by
  simp only [ChannelConfig.stallOk, Bool.and_eq_true, decide_eq_true_eq, inRange_iff]; omega

/-- A channel's parameters are valid exactly when each group of them is (R9). -/
theorem channelConfig_wf_iff (c : ChannelConfig) :
    c.wf = true ↔ c.positionsOk = true ∧ c.limitsOk = true ∧ c.gainsOk = true ∧ c.driveOk = true ∧ c.stallOk = true := by
  simp only [ChannelConfig.wf, Bool.and_eq_true, and_assoc]

theorem forall_chan {p : Chan → Prop} : (∀ m, p m) ↔ p .x ∧ p .yl ∧ p .yr :=
  ⟨fun h => ⟨h .x, h .yl, h .yr⟩, fun ⟨hx, hl, hr⟩ m => by cases m <;> assumption⟩

/-- A configuration is valid exactly when its channels are and its two global parameters are in range (R9, R10). -/
theorem config_wf_iff (k : Config) :
    k.wf = true ↔ (∀ m, (k.chan m).wf = true) ∧ 1 ≤ k.subrateN ∧ k.subrateN ≤ 1000 ∧ 1000 % k.subrateN = 0 ∧
      1 ≤ k.mismatchLimit ∧ k.mismatchLimit ≤ 2 ^ 31 := by
  simp only [forall_chan, Config.wf, tickHz, Bool.and_eq_true, beq_iff_eq, inRange_iff, cfg_chan_x, cfg_chan_yl, cfg_chan_yr]
  tauto

theorem build_invalid {k : Config} (h : k.wf = false) : build k = none := by simp [build, h]

theorem build_valid {k : Config} (h : k.wf = true) : build k = some (State.resetWith k) := by simp [build, h]

/-- What a channel's meanings need of its parameters: nonzero divisors and non-empty clamp intervals (R10). -/
theorem channelConfig_divisors {c : ChannelConfig} (h : c.wf = true) :
    c.gainPFactor ≠ 0 ∧ c.dutyKDen ≠ 0 ∧ c.ticksPerRev ≠ 0 ∧ (c.boundary : Int) ≤ (c.length : Int) - c.boundary ∧
      -(c.integralLimit : Int) ≤ c.integralLimit := by
  obtain ⟨-, hlimits, hgains, hdrive, hstall⟩ := (channelConfig_wf_iff c).1 h
  obtain ⟨hlength, -⟩ := (limitsOk_iff c).1 hlimits
  obtain ⟨-, hfactor, -⟩ := (gainsOk_iff c).1 hgains
  obtain ⟨-, -, -, -, -, -, -, hden, -⟩ := (driveOk_iff c).1 hdrive
  obtain ⟨-, -, hticks, -⟩ := (stallOk_iff c).1 hstall
  omega

/-! ### The Overload latch -/

@[simp] theorem latchOverload_chan (k : Config) (m : Chan) (b : Block) :
    (latchOverload k m b).chan m = latchChannel (k.chan m) (b.chan m) := by cases m <;> rfl

theorem latchOverload_other (k : Config) {m n : Chan} (b : Block) (h : n ≠ m) :
    (latchOverload k m b).chan n = b.chan n := by
  rw [← setChan_chan_other b m n (latchChannel (k.chan m) (b.chan m)) h]
  cases n <;> rfl

@[simp] theorem latchOverload_yerr (k : Config) (m : Chan) (b : Block) :
    (latchOverload k m b).yerr = yerrAfterOverload m b.yerr := rfl

@[simp] theorem latchOverload_lr (k : Config) (m : Chan) (b : Block) : (latchOverload k m b).lr = b.lr := setChan_lr _ _ _

@[simp] theorem latchOverload_clrRefused (k : Config) (m : Chan) (b : Block) :
    (latchOverload k m b).clrRefused = b.clrRefused := setChan_clrRefused _ _ _

@[simp] theorem latchOverload_ovfCnt (k : Config) (m : Chan) (b : Block) :
    (latchOverload k m b).ovfCnt = b.ovfCnt := setChan_ovfCnt _ _ _

@[simp] theorem latchOverload_tickPhase (k : Config) (m : Chan) (b : Block) :
    (latchOverload k m b).tickPhase = b.tickPhase := setChan_tickPhase _ _ _

/-- A Y channel's Overload becomes the Y fault when none is held (R129, R47). -/
theorem yerrAfterOverload_recorded {m : Chan} {y : YError} (hm : m ≠ .x) (hy : y = .none) :
    yerrAfterOverload m y = .overload := if_pos ⟨hm, hy⟩

/-- X is no Y channel, and the first Y fault stands (R129, R47). -/
theorem yerrAfterOverload_kept {m : Chan} {y : YError} (h : m = .x ∨ y ≠ .none) : yerrAfterOverload m y = y :=
  if_neg fun ⟨hm, hy⟩ => h.elim hm (· hy)

/-! ### The statements of the family -/

/-- Settles O5: whatever a step runs ends in `State.finish`, which keeps the configuration. -/
theorem configurationNeverChanges : Obligations.ConfigurationNeverChanges := by
  intro s t h
  rw [step_next_fields h]

/-- Settles O3: the ranges of each group of parameters, put together in R9's order. -/
theorem configurationRangesAreTheTables : Obligations.ConfigurationRangesAreTheTables := by
  intro k
  simp only [config_wf_iff, channelConfig_wf_iff, positionsOk_iff, limitsOk_iff, gainsOk_iff, driveOk_iff, stallOk_iff,
    and_assoc]

/-- Settles O4: the validity check guards the step and the build, and each range shuts out the zero divisors. -/
theorem invalidConfigurationDoesNotRun : Obligations.InvalidConfigurationDoesNotRun := by
  refine ⟨fun _ => step_invalid, fun _ => build_invalid, fun k hk => ?_⟩
  obtain ⟨hchan, hsub, -, hdvd, -⟩ := (config_wf_iff k).1 hk
  exact ⟨build_valid hk, Nat.one_le_iff_ne_zero.1 hsub, hdvd, fun m => channelConfig_divisors (hchan m)⟩

/-- Settles O24: the latch replaces one channel record and the Y fault, and keeps the rest of the block. -/
theorem overloadLatchEntry : Obligations.OverloadLatchEntry := by
  intro k m b
  exact ⟨latchOverload_chan k m b, fun _ => latchOverload_other k b, yerrAfterOverload_recorded, yerrAfterOverload_kept,
    latchOverload_lr k m b, latchOverload_clrRefused k m b, latchOverload_ovfCnt k m b, latchOverload_tickPhase k m b⟩

end Sys2Proof.Machine

/-! ## State, invariants and whole-machine rules (spec/10_state.md)

What a TICK does to each group of fields, what any instruction can do to the block and to one channel, and from these the
invariants of a step and of a run: the lemmas first, the statements of the family at the end. -/

namespace Sys2Proof.Machine

/-! ### Single fields a controller run keeps -/

@[simp] theorem control_mode (k : ChannelConfig) (cap : Option Int) (c : Channel) : (control k cap c).mode = c.mode := by
  obtain ⟨-, h, -⟩ := control_keeps k cap c
  exact h

@[simp] theorem control_homeSw (k : ChannelConfig) (cap : Option Int) (c : Channel) :
    (control k cap c).homeSw = c.homeSw := by
  obtain ⟨-, -, h, -⟩ := control_keeps k cap c
  exact h

@[simp] theorem control_limitSw (k : ChannelConfig) (cap : Option Int) (c : Channel) :
    (control k cap c).limitSw = c.limitSw := by
  obtain ⟨-, -, -, h, -⟩ := control_keeps k cap c
  exact h

@[simp] theorem control_strike (k : ChannelConfig) (cap : Option Int) (c : Channel) :
    (control k cap c).strike = c.strike := by
  obtain ⟨-, -, -, -, -, -, -, h, -⟩ := control_keeps k cap c
  exact h

@[simp] theorem control_edge1 (k : ChannelConfig) (cap : Option Int) (c : Channel) :
    (control k cap c).edge1 = c.edge1 := by
  obtain ⟨-, -, -, -, -, -, -, -, -, h, -⟩ := control_keeps k cap c
  exact h

@[simp] theorem control_edge2 (k : ChannelConfig) (cap : Option Int) (c : Channel) :
    (control k cap c).edge2 = c.edge2 := by
  obtain ⟨-, -, -, -, -, -, -, -, -, -, h⟩ := control_keeps k cap c
  exact h

/-! ### What a TICK does to the latches and the modes -/

/-- The detector latches channel m in a tick (R86, R129). -/
abbrev LatchesInTick (k : Config) (b : Block) (m : Chan) : Prop :=
  subrateTick k b = true ∧ latchesNow (k.chan m) (b.chan m) = true

/-- The synchronizer of a tick latches LrMismatch: the divergence is at the limit and it finds no Y fault (R137, R176). -/
abbrev MismatchInTick (k : Config) (b : Block) : Prop :=
  yerrBefore k b = .none ∧ k.mismatchLimit ≤ (divergence b).natAbs

/-- A held Y fault is the one the synchronizer finds (R47). -/
theorem yerrBefore_of_held {k : Config} {b : Block} (h : b.yerr ≠ .none) : yerrBefore k b = b.yerr := by
  rw [yerrBefore_eq, if_neg fun hc => h hc.1]

/-- With none held, a Y channel's latch of the same tick is the fault the synchronizer finds (R176). -/
theorem yerrBefore_of_latch {k : Config} {b : Block} {m : Chan} (hm : m ≠ .x) (hy : b.yerr = .none)
    (hl : LatchesInTick k b m) : yerrBefore k b = .overload := by
  rw [yerrBefore_eq]
  cases m with
  | x => exact absurd rfl hm
  | yl => exact if_pos ⟨hy, hl.1, .inl hl.2⟩
  | yr => exact if_pos ⟨hy, hl.1, .inr hl.2⟩

/-- Without a Y channel's latch the detector leaves the Y fault (R129). -/
theorem yerrBefore_of_quiet {k : Config} {b : Block} (h : ∀ m, m ≠ .x → ¬ LatchesInTick k b m) :
    yerrBefore k b = b.yerr := by
  rw [yerrBefore_eq]
  refine if_neg ?_
  rintro ⟨-, hs, hl | hl⟩
  · exact h .yl (by decide) ⟨hs, hl⟩
  · exact h .yr (by decide) ⟨hs, hl⟩

theorem tick_yerr (k : Config) (sw : BitVec 6) (b : Block) :
    (tick k sw b).yerr = if MismatchInTick k b then .lrMismatch else yerrBefore k b := by
  obtain ⟨-, -, -, -, hrun, htrip, hheld⟩ := tick_globals k sw b
  split
  next h => exact htrip h.2 h.1
  next h =>
    by_cases hn : yerrBefore k b = .none
    · exact hrun (Nat.lt_of_not_le fun hd => h ⟨hn, hd⟩)
    · exact hheld hn

/-- A whole tick runs a channel's controller, or it brakes a Y channel and skips its controller (R83, R137). -/
theorem tick_control_or_brake (k : Config) (sw : BitVec 6) (b : Block) (m : Chan) :
    ((m = .x ∨ (divergence b).natAbs < k.mismatchLimit) ∧
        (tick k sw b).chan m = control (k.chan m) (controlCap b m) (controlInput k sw b m)) ∨
      (m ≠ .x ∧ k.mismatchLimit ≤ (divergence b).natAbs ∧
        (tick k sw b).chan m = brakeOutputs (k.chan m) { controlInput k sw b m with
          mode := if MismatchInTick k b then .disabled else (controlInput k sw b m).mode }) := by
  rcases tick_chan k sw b m with h | ⟨hm, hd, hnone, hheld⟩
  · exact .inl h
  · refine .inr ⟨hm, hd, ?_⟩
    by_cases hn : yerrBefore k b = .none
    · rw [if_pos ⟨hn, hd⟩]; exact hnone hn
    · rw [if_neg fun hc => hn hc.1]; exact hheld hn

/-- A tick leaves a channel's mode, or disables it with a latch: its own Overload, or LrMismatch on a Y channel (R34). -/
theorem tick_mode (k : Config) (sw : BitVec 6) (b : Block) (m : Chan) :
    ((tick k sw b).chan m).mode =
      if LatchesInTick k b m ∨ (m ≠ .x ∧ MismatchInTick k b) then .disabled else (b.chan m).mode := by
  have hin := controlInput_mode k sw b m
  rcases tick_control_or_brake k sw b m with ⟨hrun, h⟩ | ⟨hm, -, h⟩
  · have hno : ¬ (m ≠ .x ∧ MismatchInTick k b) := fun ⟨hm, hn, hd⟩ =>
      hrun.elim hm fun hlt => absurd hd (Nat.not_le.2 hlt)
    rw [h, control_mode, hin]
    simp only [hno, or_false]
  · rw [h, brakeOutputs_mode]
    by_cases hmis : MismatchInTick k b
    · rw [if_pos hmis, if_pos (.inr ⟨hm, hmis⟩)]
    · simp only [hmis, if_false, hin, and_false, or_false]

/-- No tick enables a channel (R183). -/
theorem tick_mode_disabled_or_same (k : Config) (sw : BitVec 6) (b : Block) (m : Chan) :
    ((tick k sw b).chan m).mode = .disabled ∨ ((tick k sw b).chan m).mode = (b.chan m).mode := by
  rw [tick_mode]
  split
  · exact .inl rfl
  · exact .inr rfl

/-- The count after a tick: the evaluation's on a sub-rate tick of an unlatched channel, otherwise as it was (R86, R130). -/
theorem tick_strike (k : Config) (sw : BitVec 6) (b : Block) (m : Chan) :
    ((tick k sw b).chan m).strike =
      if subrateTick k b = true ∧ (b.chan m).error = .none then (evaluate (k.chan m) (b.chan m)).strike
      else (b.chan m).strike := by
  have hin : ((tick k sw b).chan m).strike = (readyChannel k (subrateTick k b) sw m (b.chan m)).strike := by
    rcases tick_control_or_brake k sw b m with ⟨-, h⟩ | ⟨-, -, h⟩ <;> rw [h]
    · exact control_strike _ _ _
    · rfl
  obtain ⟨hkept, heval⟩ := readyChannel_strike k (subrateTick k b) sw m (b.chan m)
  rw [hin]
  split
  next h => exact (heval h.1 h.2).1
  next h =>
    refine (hkept ?_).1
    cases hs : subrateTick k b with
    | false => exact .inl rfl
    | true =>
      cases he : (b.chan m).error with
      | none => exact absurd ⟨hs, he⟩ h
      | overload => exact .inr rfl

/-! ### What the controller leaves in a channel -/

theorem braked_brakeOutputs (k : ChannelConfig) (c : Channel) : Braked k (brakeOutputs k c) := ⟨rfl, rfl, rfl⟩

theorem braked_gateExit (k : ChannelConfig) (c : Channel) : Braked k (gateExit k c) := ⟨rfl, rfl, rfl⟩

/-- The channel gives a drive that the output stage can commit (R112, R120, R121). -/
def Driven (k : ChannelConfig) (c : Channel) : Prop :=
  c.direction ≠ .brake ∧ ∃ v, 0 < v ∧ v ≤ k.maxSpeed ∧ c.setSpeed = BitVec.ofNat 8 v ∧
    c.pwmDuty = BitVec.ofInt 8 (duty k c.direction v)

theorem wantedDirection_zero (ec : Int) : wantedDirection ec 0 = .brake := rfl

theorem targetSpeed_le (k : ChannelConfig) (ec : Int) : targetSpeed k ec ≤ k.maxSpeed := Nat.min_le_right _ _

/-- Committing a wanted drive gives one, since the slew rate is not 0 (R119). -/
theorem driven_commitOutput {k : ChannelConfig} (hslew : 1 ≤ k.slewRate) {ec : Int} (p : Nat) (c : Channel)
    (hw : wantedDirection ec (targetSpeed k ec) ≠ .brake) :
    Driven k (commitOutput k (wantedDirection ec (targetSpeed k ec)) (min (targetSpeed k ec) (p + k.slewRate)) c) := by
  have hpos : 0 < targetSpeed k ec := Nat.pos_of_ne_zero fun h0 => hw (by rw [h0, wantedDirection_zero])
  have hle := targetSpeed_le k ec
  exact ⟨hw, min (targetSpeed k ec) (p + k.slewRate), by omega, by omega, rfl, rfl⟩

/-- A controller run ends with Brake outputs or with a drive (R43, R117). -/
theorem control_braked_or_driven {k : ChannelConfig} (hslew : 1 ≤ k.slewRate) (cap : Option Int) (c : Channel) :
    Braked k (control k cap c) ∨ Driven k (control k cap c) := by
  rcases control_cases k cap c with ⟨-, h⟩ | ⟨-, ⟨-, h⟩ | ⟨-, h, -⟩ | ⟨-, h, hw, -⟩⟩ <;> rw [h]
  · exact .inl (braked_gateExit k c)
  · exact .inl (braked_gateExit k _)
  · exact .inl (braked_brakeOutputs k _)
  · exact .inr (driven_commitOutput hslew _ _ hw)

/-- A controller run zeroes the integral or moves it by one step 6 (R104, R108, R109). -/
theorem control_integ (k : ChannelConfig) (cap : Option Int) (c : Channel) :
    (control k cap c).integ = 0 ∨ ∃ e, (control k cap c).integ = u32 (nextIntegral k (s32 c.integ) e) := by
  rcases control_cases k cap c with ⟨-, h⟩ | ⟨-, ⟨-, h⟩ | ⟨-, h, -⟩ | ⟨-, h, -⟩⟩ <;> rw [h]
  · exact .inl rfl
  · exact .inl rfl
  · exact .inr ⟨_, rfl⟩
  · exact .inr ⟨_, rfl⟩

/-- The position, the command and the errors of an enabled channel are those steps 2 to 4 record (R105 to R107). -/
theorem control_prepared {k : ChannelConfig} {cap : Option Int} {c : Channel} (hmode : c.mode = .positionControl) :
    (control k cap c).pos = (prepare k cap c).pos ∧ (control k cap c).cmd = (prepare k cap c).cmd ∧
      (control k cap c).err = (prepare k cap c).err ∧ (control k cap c).efferr = (prepare k cap c).efferr := by
  rcases control_cases k cap c with ⟨hm, -⟩ | ⟨-, ⟨-, h⟩ | ⟨-, h, -⟩ | ⟨-, h, -⟩⟩
  · exact absurd hmode hm
  all_goals rw [h]; exact ⟨rfl, rfl, rfl, rfl⟩

theorem switchOverride_cmd (k : ChannelConfig) (c : Channel) : (switchOverride k c).cmd = c.cmd := by
  unfold switchOverride
  split
  · rfl
  · split <;> rfl

theorem switchOverride_released {k : ChannelConfig} {c : Channel} (hhome : c.homeSw = false) (hlimit : c.limitSw = false) :
    switchOverride k c = c := by simp [switchOverride, hhome, hlimit]

theorem prepare_cmd (k : ChannelConfig) (cap : Option Int) (c : Channel) :
    (prepare k cap c).cmd = u32 (clamp c.cmd.toNat k.boundary ((k.length : Int) - k.boundary)) := by
  rw [prepare, recordError_cmd, switchOverride_cmd, clampCommand_cmd]

/-- Steps 2 to 4 record one error, and the same with the cap applied (R107). -/
theorem prepare_errors (k : ChannelConfig) (cap : Option Int) (c : Channel) :
    ∃ own, InI32 own ∧ (prepare k cap c).err = u32 own ∧ (prepare k cap c).efferr = u32 (effectiveError cap own) :=
  ⟨ownError (switchOverride k (clampCommand k c)), sat32_range _, recordError_err _ _, recordError_efferr _ _⟩

/-- A controller run moves the position of an enabled channel with an asserted switch only (R106). -/
theorem control_pos_changed {k : ChannelConfig} {cap : Option Int} {c : Channel} (h : (control k cap c).pos ≠ c.pos) :
    c.mode = .positionControl ∧ (c.homeSw = true ∨ c.limitSw = true) := by
  by_cases hmode : c.mode = .positionControl
  · refine ⟨hmode, ?_⟩
    by_contra hsw
    rw [not_or, Bool.not_eq_true, Bool.not_eq_true] at hsw
    refine h ?_
    rw [(control_prepared hmode).1, prepare, recordError_pos,
      switchOverride_released (c := clampCommand k c) hsw.1 hsw.2, clampCommand_pos]
  · exact absurd (by rw [control_gate hmode, gateExit_pos]) h

/-! ### The same of a whole TICK -/

/-- Every tick leaves every channel with Brake outputs or with a drive (R43, R83). -/
theorem tick_braked_or_driven {k : Config} (m : Chan) (hslew : 1 ≤ (k.chan m).slewRate) (sw : BitVec 6) (b : Block) :
    Braked (k.chan m) ((tick k sw b).chan m) ∨ Driven (k.chan m) ((tick k sw b).chan m) := by
  rcases tick_control_or_brake k sw b m with ⟨-, h⟩ | ⟨-, -, h⟩ <;> rw [h]
  · exact control_braked_or_driven hslew _ _
  · exact .inl (braked_brakeOutputs _ _)

/-- A tick leaves a channel's integral, zeroes it, or moves it by one step 6 (R104, R108, R109, R137). -/
theorem tick_integ (k : Config) (sw : BitVec 6) (b : Block) (m : Chan) :
    let i := ((tick k sw b).chan m).integ
    i = (b.chan m).integ ∨ i = 0 ∨ ∃ e, i = u32 (nextIntegral (k.chan m) (s32 (b.chan m).integ) e) := by
  obtain ⟨-, -, -, -, hin, -⟩ := controlInput_keeps k sw b m
  rcases tick_control_or_brake k sw b m with ⟨-, h⟩ | ⟨-, -, h⟩ <;> rw [h]
  · rw [← hin]; exact .inr (control_integ _ _ _)
  · exact .inl hin

/-- No tick writes the edge timestamps (R92). -/
theorem tick_edges (k : Config) (sw : BitVec 6) (b : Block) (m : Chan) :
    ((tick k sw b).chan m).edge1 = (b.chan m).edge1 ∧ ((tick k sw b).chan m).edge2 = (b.chan m).edge2 := by
  obtain ⟨-, -, -, -, -, h1, h2, -⟩ := controlInput_keeps k sw b m
  rcases tick_control_or_brake k sw b m with ⟨-, h⟩ | ⟨-, -, h⟩ <;> rw [h]
  · rw [control_edge1, control_edge2]; exact ⟨h1, h2⟩
  · exact ⟨h1, h2⟩

/-- A tick that moves a position finds the channel in PositionControl and samples one of its switches asserted (R26, R106). -/
theorem tick_pos_changed {k : Config} {sw : BitVec 6} {b : Block} {m : Chan}
    (hpos : ((tick k sw b).chan m).pos ≠ (b.chan m).pos) :
    (b.chan m).mode = .positionControl ∧
      (((tick k sw b).chan m).homeSw = true ∨ ((tick k sw b).chan m).limitSw = true) := by
  obtain ⟨hin, -⟩ := controlInput_keeps k sw b m
  have hmode := controlInput_mode k sw b m
  rcases tick_control_or_brake k sw b m with ⟨-, h⟩ | ⟨-, -, h⟩ <;> rw [h] at hpos ⊢
  · rw [← hin] at hpos
    obtain ⟨hpc, hsw⟩ := control_pos_changed hpos
    rw [control_homeSw, control_limitSw]
    refine ⟨?_, hsw⟩
    rw [hpc] at hmode
    split at hmode
    · cases hmode
    · exact hmode.symm
  · exact absurd hin hpos

/-! ### What an instruction does to the block, and to one channel -/

/-- CLEAR is the WR_CTRL of the word 1 (R148). -/
theorem ctrl_word_of_clear {d : Word} (hreserved : field d 1 31 = 0) (hclear : d.getLsbD 0 = true) : d = 1 := by
  have hn := congrArg BitVec.toNat hreserved
  rw [toNat_field] at hn
  have hb : d.toNat % 2 = 1 := by simpa [BitVec.getLsbD, Nat.testBit_zero] using hclear
  apply BitVec.eq_of_toNat_eq
  have hlt := d.isLt
  change d.toNat = 1
  change d.toNat / 2 ^ 1 % 2 ^ 31 = 0 at hn
  omega

theorem modeLocked_iff (m : Chan) (b : Block) :
    modeLocked m b = true ↔ (b.chan m).error = .overload ∨ (m ≠ .x ∧ b.yerr = .lrMismatch) := by
  simp only [modeLocked, Bool.or_eq_true, Bool.and_eq_true, decide_eq_true_eq]

/-- Everything an instruction can do to the block. READs, WRITEs answered with ERR, and a WR_CTRL without CLEAR leave it. -/
inductive Effect (k : Config) (b : Block) : Instr → Block → Prop
  | unchanged (i : Instr) : Effect k b i b
  | edge (m : Chan) (l : Bool) (cap : Capture) : Effect k b (Instr.edge m l cap) (edge k m l cap b)
  | ovf : Effect k b .ovf (overflow b)
  | tick (sw : BitVec 6) : Effect k b (.tick sw) (tick k sw b)
  | pos (m : Chan) (d : Word) : Effect k b (Instr.wrPos m d) (b.setChan m { b.chan m with pos := d })
  | cmdX (d : Word) : Effect k b (.wrCmdX d) (b.setChan .x { b.x with cmd := d })
  | cmdYl (d : Word) : Effect k b (.wrCmdYl d) (b.setChan .yl { b.yl with cmd := d })
  | mode (m : Chan) (d : Word) (v : Mode) (hfree : v = .disabled ∨ ¬ modeLocked m b = true) :
      Effect k b (Instr.wrMode m d) (b.setChan m { b.chan m with mode := v })
  | clear : Effect k b (.wrCtrl 1) (clearFaults k b)

/-- The effects above are those of `exec` (R78). -/
theorem exec_effect {i : Instr} {s t : State} (h : exec i s = .next t) : Effect s.cfg s.blk i t.blk := by
  rcases Instr.shape i with ⟨m, l, cap, rfl⟩ | rfl | ⟨sw, rfl⟩ | ⟨m, d, rfl⟩ | ⟨d, rfl⟩ | ⟨d, rfl⟩ | ⟨m, d, rfl⟩ | ⟨d, rfl⟩ |
    ⟨m, r, rfl⟩ | ⟨g, rfl⟩
  · rw [exec_edge] at h; cases h; exact .edge m l cap
  · cases h; exact .ovf
  · rw [exec_tick] at h; cases h; exact .tick sw
  · rw [exec_wrPos, writePos, u32_s32, finishWrite_eq] at h; cases h; exact .pos m d
  · cases h; exact .cmdX d
  · cases h; exact .cmdYl d
  · rw [exec_wrMode] at h
    rcases writeMode_cases m d s with ⟨v, -, -, hfree, hw⟩ | ⟨-, hw⟩ <;> rw [hw] at h <;> cases h
    · exact .mode m d v (by rwa [Bool.not_eq_true])
    · exact .unchanged _
  · change writeCtrl d s = .next t at h
    rcases writeCtrl_cases d s with ⟨-, hw⟩ | ⟨hr, hc, hw⟩ | ⟨-, -, hw⟩ <;> rw [hw] at h <;> cases h
    · exact .unchanged _
    · rw [ctrl_word_of_clear hr hc]; exact .clear
    · exact .unchanged _
  · rw [exec_rd] at h; cases h; exact .unchanged _
  · rw [exec_rdGlobal] at h; cases h; exact .unchanged _

/-- Everything an instruction can do to channel m. -/
inductive ChannelEffect (k : Config) (b : Block) (m : Chan) : Instr → Channel → Prop
  | unchanged (i : Instr) : ChannelEffect k b m i (b.chan m)
  | edge (l : Bool) (cap : Capture) : ChannelEffect k b m (Instr.edge m l cap) ((Machine.edge k m l cap b).chan m)
  | tick (sw : BitVec 6) : ChannelEffect k b m (.tick sw) ((Machine.tick k sw b).chan m)
  | pos (d : Word) : ChannelEffect k b m (Instr.wrPos m d) { b.chan m with pos := d }
  | cmd (i : Instr) (d : Word) : ChannelEffect k b m i { b.chan m with cmd := d }
  | mode (d : Word) (v : Mode) (hfree : v = .disabled ∨ ¬ modeLocked m b = true) :
      ChannelEffect k b m (Instr.wrMode m d) { b.chan m with mode := v }
  | clear : ChannelEffect k b m (.wrCtrl 1) (clearChannel (b.chan m))

/-- CLEAR is refused, or clears every channel and the Y fault (R149). -/
theorem clearFaults_cases (k : Config) (b : Block) :
    clearFaults k b = { b with clrRefused := true } ∨
      clearFaults k b = { b with x := clearChannel b.x, yl := clearChannel b.yl, yr := clearChannel b.yr, yerr := .none,
                                 clrRefused := false } := by
  unfold clearFaults
  split
  · exact .inl rfl
  · exact .inr rfl

/-- An effect on a block that writes channel m's record only, seen from channel n. -/
theorem ChannelEffect.of_setChan {k : Config} {b : Block} {i : Instr} {m : Chan} {c : Channel}
    (h : ChannelEffect k b m i c) (n : Chan) : ChannelEffect k b n i ((b.setChan m c).chan n) := by
  by_cases hn : n = m
  · subst hn; rwa [setChan_chan_same]
  · rw [setChan_chan_other _ _ _ _ hn]; exact .unchanged i

/-- What an instruction does to the block, seen from one channel (R24). -/
theorem Effect.channel {k : Config} {b b' : Block} {i : Instr} (h : Effect k b i b') (n : Chan) :
    ChannelEffect k b n i (b'.chan n) := by
  cases h with
  | unchanged => exact .unchanged i
  | edge m l cap =>
    by_cases hn : n = m
    · subst hn; exact .edge l cap
    · rw [edge_other k m n l cap b hn]; exact .unchanged _
  | ovf => cases n <;> exact .unchanged _
  | tick sw => exact .tick sw
  | pos m d => exact (ChannelEffect.pos d).of_setChan n
  | cmdX d => exact (ChannelEffect.cmd (m := .x) (.wrCmdX d) d).of_setChan n
  | cmdYl d => exact (ChannelEffect.cmd (m := .yl) (.wrCmdYl d) d).of_setChan n
  | mode m d v hfree => exact (ChannelEffect.mode d v hfree).of_setChan n
  | clear =>
    rcases clearFaults_cases k b with h | h <;> rw [h]
    · cases n <;> exact .unchanged _
    · cases n <;> exact .clear

/-! ### Steps and runs -/

/-- A step that answers a next state runs one instruction on the block of a machine with a valid configuration, or leaves the
block (R10, R63, R169, R188). -/
theorem step_effect {s t : State} (h : step s = .next t) :
    s.cfg.wf = true ∧ t.cfg = s.cfg ∧ (t.blk = s.blk ∨ ∃ i, Effect s.cfg s.blk i t.blk) := by
  refine (step_cases s).elim (fun ⟨_, hs⟩ => ?_) fun ⟨hwf, hs⟩ => ⟨hwf, by rw [step_next_fields h], ?_⟩
  · rw [hs] at h; cases h
  rcases hs with ⟨-, hs⟩ | ⟨why, -, hs⟩ | ⟨op, rest, -, hs⟩ <;> rw [hs] at h
  · cases h; exact .inl rfl
  · cases h
  · cases op with
    | instr i => exact .inr ⟨i, exec_effect (s := { s with stimulus := rest }) h⟩
    | unmappedRead a => cases h; exact .inl rfl
    | unmappedWrite a d => cases h; exact .inl rfl

/-- A rule about each channel that every instruction keeps is kept by every step. -/
theorem step_keeps_channels {P : ChannelConfig → Channel → Prop}
    (hP : ∀ k b m i c, (k.chan m).wf = true → ChannelEffect k b m i c → P (k.chan m) (b.chan m) → P (k.chan m) c)
    {s t : State} (h : step s = .next t) (hs : ∀ m, P (s.cfg.chan m) (s.blk.chan m)) (m : Chan) :
    P (t.cfg.chan m) (t.blk.chan m) := by
  obtain ⟨hwf, hcfg, hb | ⟨i, he⟩⟩ := step_effect h <;> rw [hcfg]
  · rw [hb]; exact hs m
  · exact hP _ _ m i _ (((config_wf_iff _).1 hwf).1 m) (he.channel m) (hs m)

/-- A rule that every step keeps holds after every run from a state that meets it (R63). -/
theorem run_keeps {M : Host.Core} {P : M.State → Prop} (hstep : ∀ s t, P s → M.step s = .next t → P t) (n : Nat)
    {s t : M.State} (hs : P s) (h : M.run n s = .next t) : P t := by
  induction n generalizing s with
  | zero => cases h; exact hs
  | succ n ih =>
    unfold Host.Core.run at h
    split at h
    next u hu => exact ih (hstep s u hs hu) h
    · cases h
    · cases h

/-! ### The invariants -/

theorem driveOk_of_braked {k : ChannelConfig} {c : Channel} (h : Braked k c) : c.DriveOk k := by
  obtain ⟨hdir, hspeed, hduty⟩ := h
  exact ⟨⟨fun _ => BitVec.eq_of_toNat_eq hspeed, fun _ => hdir⟩, fun _ => hduty⟩

/-- A driving channel turns, because its speed is not 0 and fits its register (R43, R112). -/
theorem driveOk_of_driven {k : ChannelConfig} {c : Channel} (hmax : k.maxSpeed ≤ 100) (h : Driven k c) : c.DriveOk k := by
  obtain ⟨hdir, v, hpos, hle, hspeed, -⟩ := h
  have hne : c.setSpeed ≠ 0 := by
    intro h0
    have hn := congrArg BitVec.toNat (hspeed.symm.trans h0)
    change v % 2 ^ 8 = 0 at hn
    omega
  exact ⟨⟨fun hb => absurd hb hdir, fun h0 => absurd h0 hne⟩, fun hb => absurd hb hdir⟩

theorem rangesOk_of_braked {k : ChannelConfig} {c : Channel} (hbrake : k.dutyBrake ≤ 100) (h : Braked k c) :
    c.RangesOk k := by
  obtain ⟨-, hspeed, hduty⟩ := h
  refine ⟨by omega, ?_⟩
  rw [hduty, BitVec.toNat_ofNat]
  omega

/-- The duty of a drive is clamped (R120). -/
theorem duty_range {d : Direction} (k : ChannelConfig) (h : d ≠ .brake) (v : Nat) : 0 ≤ duty k d v ∧ duty k d v ≤ 100 := by
  cases d with
  | brake => exact absurd rfl h
  | forward => exact clamp_range (by decide)
  | reverse => exact clamp_range (by decide)

theorem rangesOk_of_driven {k : ChannelConfig} {c : Channel} (h : Driven k c) : c.RangesOk k := by
  obtain ⟨hdir, v, -, hle, hspeed, hduty⟩ := h
  obtain ⟨hlo, hhi⟩ := duty_range k hdir v
  refine ⟨?_, ?_⟩
  · rw [hspeed, BitVec.toNat_ofNat]
    exact (Nat.mod_le _ _).trans hle
  · rw [hduty, BitVec.toNat_ofInt]
    omega

/-- What the drive rules need of a channel's parameters (R9). -/
theorem channelConfig_drive {k : ChannelConfig} (h : k.wf = true) :
    k.maxSpeed ≤ 100 ∧ 1 ≤ k.slewRate ∧ k.dutyBrake ≤ 100 := by
  obtain ⟨-, -, -, hdrive, -⟩ := (channelConfig_wf_iff k).1 h
  obtain ⟨hmax, hslew, -, -, -, -, -, -, -, -, -, hbrake⟩ := (driveOk_iff k).1 hdrive
  exact ⟨hmax, hslew, hbrake⟩

/-- What the integral's rule and the latch's rule need of a channel's parameters (R9). -/
theorem channelConfig_limits {k : ChannelConfig} (h : k.wf = true) :
    k.integralLimit ≤ 2147483647 ∧ 1 ≤ k.strikeLimit ∧ k.strikeLimit ≤ 65535 := by
  obtain ⟨-, -, hgains, -, hstall⟩ := (channelConfig_wf_iff k).1 h
  obtain ⟨-, -, -, -, hlimit⟩ := (gainsOk_iff k).1 hgains
  obtain ⟨-, -, -, -, -, hlow, hhigh⟩ := (stallOk_iff k).1 hstall
  exact ⟨hlimit, hlow, by omega⟩

/-- An instruction leaves a channel's outputs, brakes it or makes it drive (R43, R204). -/
theorem channelEffect_outputs {k : Config} {b : Block} {m : Chan} {i : Instr} {c : Channel}
    (hslew : 1 ≤ (k.chan m).slewRate) (h : ChannelEffect k b m i c) :
    (c.direction = (b.chan m).direction ∧ c.setSpeed = (b.chan m).setSpeed ∧ c.pwmDuty = (b.chan m).pwmDuty) ∨
      Braked (k.chan m) c ∨ Driven (k.chan m) c := by
  cases h with
  | unchanged | pos | cmd | mode | clear => exact .inl ⟨rfl, rfl, rfl⟩
  | edge l cap => rw [edge_chan]; exact .inl ⟨rfl, rfl, rfl⟩
  | tick sw => exact .inr (tick_braked_or_driven m hslew sw b)

/-- Every instruction keeps R43. -/
theorem channelEffect_driveOk {k : Config} {b : Block} {m : Chan} {i : Instr} {c : Channel}
    (hwf : (k.chan m).wf = true) (h : ChannelEffect k b m i c) (hc : (b.chan m).DriveOk (k.chan m)) :
    c.DriveOk (k.chan m) := by
  obtain ⟨hmax, hslew, -⟩ := channelConfig_drive hwf
  rcases channelEffect_outputs hslew h with ⟨hdir, hspeed, hduty⟩ | hbraked | hdriven
  · unfold Channel.DriveOk
    rwa [hdir, hspeed, hduty]
  · exact driveOk_of_braked hbraked
  · exact driveOk_of_driven hmax hdriven

/-- Every instruction keeps the ranges of R32 and R33. -/
theorem channelEffect_rangesOk {k : Config} {b : Block} {m : Chan} {i : Instr} {c : Channel}
    (hwf : (k.chan m).wf = true) (h : ChannelEffect k b m i c) (hc : (b.chan m).RangesOk (k.chan m)) :
    c.RangesOk (k.chan m) := by
  obtain ⟨-, hslew, hbrake⟩ := channelConfig_drive hwf
  rcases channelEffect_outputs hslew h with ⟨-, hspeed, hduty⟩ | hbraked | hdriven
  · unfold Channel.RangesOk
    rwa [hspeed, hduty]
  · exact rangesOk_of_braked hbrake hbraked
  · exact rangesOk_of_driven hdriven

/-- An instruction leaves a channel's integral, zeroes it, or moves it by one step 6 (R104, R108, R109). -/
theorem channelEffect_integ {k : Config} {b : Block} {m : Chan} {i : Instr} {c : Channel}
    (h : ChannelEffect k b m i c) :
    c.integ = (b.chan m).integ ∨ c.integ = 0 ∨
      ∃ e, c.integ = u32 (nextIntegral (k.chan m) (s32 (b.chan m).integ) e) := by
  cases h with
  | unchanged | pos | cmd | mode | clear => exact .inl rfl
  | edge l cap => rw [edge_chan]; exact .inl rfl
  | tick sw => exact tick_integ k sw b m

/-- Step 6 leaves the integral within its limit, which fits the register (R109). -/
theorem nextIntegral_bound (k : ChannelConfig) (hlimit : k.integralLimit ≤ 2147483647) (i e : Int) :
    (s32 (u32 (nextIntegral k i e))).natAbs ≤ k.integralLimit := by
  have hrange : -(k.integralLimit : Int) ≤ nextIntegral k i e ∧ nextIntegral k i e ≤ k.integralLimit := by
    unfold nextIntegral
    split
    · omega
    · exact clamp_range (by omega)
  rw [s32_u32 (by omega) (by omega)]
  omega

/-- Every instruction keeps R45. -/
theorem channelEffect_integralOk {k : Config} {b : Block} {m : Chan} {i : Instr} {c : Channel}
    (hwf : (k.chan m).wf = true) (h : ChannelEffect k b m i c) (hc : (b.chan m).IntegralOk (k.chan m)) :
    c.IntegralOk (k.chan m) := by
  obtain ⟨hlimit, -⟩ := channelConfig_limits hwf
  unfold Channel.IntegralOk
  rcases channelEffect_integ h with hi | hi | ⟨e, hi⟩ <;> rw [hi]
  · exact hc
  · exact Nat.zero_le _
  · exact nextIntegral_bound _ hlimit _ e

/-- With `TS_ENABLE` off no instruction writes a channel's timestamps (R92). -/
theorem channelEffect_edges {k : Config} {b : Block} {m : Chan} {i : Instr} {c : Channel}
    (hoff : (k.chan m).tsEnable = false) (h : ChannelEffect k b m i c) :
    c.edge1 = (b.chan m).edge1 ∧ c.edge2 = (b.chan m).edge2 := by
  cases h with
  | unchanged | pos | cmd | mode | clear => exact ⟨rfl, rfl⟩
  | edge l cap => rw [edge_chan, hoff]; exact ⟨rfl, rfl⟩
  | tick sw => exact tick_edges k sw b m

/-- Every instruction keeps what a switched-off option leaves stuck (R92, R109). -/
theorem channelEffect_optionsOk {k : Config} {b : Block} {m : Chan} {i : Instr} {c : Channel}
    (h : ChannelEffect k b m i c) (hc : (b.chan m).OptionsOk (k.chan m)) : c.OptionsOk (k.chan m) := by
  refine ⟨fun hoff => ?_, fun hgain => ?_⟩
  · obtain ⟨h1, h2⟩ := channelEffect_edges hoff h
    rw [h1, h2]; exact hc.1 hoff
  · rcases channelEffect_integ h with hi | hi | ⟨e, hi⟩ <;> rw [hi]
    · exact hc.2 hgain
    · rw [nextIntegral, if_pos hgain, u32_zero]

/-! ### The latches -/

/-- The strike that latches brings the count to the limit exactly (R127, R129). -/
theorem evaluate_strike_of_latches {k : ChannelConfig} {c : Channel} (hlimit : k.strikeLimit ≤ 65535)
    (hlatch : latches k c = true) (hlt : c.strike.toNat < k.strikeLimit) :
    (evaluate k c).strike.toNat = k.strikeLimit := by
  simp only [latches, Bool.and_eq_true, decide_eq_true_eq, addStrike_strike, BitVec.toNat_ofNat] at hlatch
  obtain ⟨⟨⟨-, hdir⟩, hstall⟩, hreach⟩ := hlatch
  rw [evaluate, if_neg (not_not.2 hdir), if_pos hstall, addStrike_strike, BitVec.toNat_ofNat]
  omega

/-- An evaluation that does not latch leaves the count below the limit (R127, R128). -/
theorem evaluate_strike_lt {k : ChannelConfig} {c : Channel} (hlimit : 1 ≤ k.strikeLimit) (hnone : c.error = .none)
    (hlatch : latches k c = false) : (evaluate k c).strike.toNat < k.strikeLimit := by
  unfold evaluate
  split
  · exact hlimit
  next hdir =>
    split
    next hstall => simpa [latches, hnone, not_not.1 hdir, hstall] using hlatch
    · exact hlimit

/-- A tick keeps what a channel's latch promises (R129, R130). -/
theorem tick_latchOk {k : Config} {b : Block} {m : Chan} (hwf : (k.chan m).wf = true) (sw : BitVec 6)
    (hc : (b.chan m).LatchOk (k.chan m)) : ((tick k sw b).chan m).LatchOk (k.chan m) := by
  obtain ⟨-, hlow, hhigh⟩ := channelConfig_limits hwf
  obtain ⟨hlatched, hfree⟩ := hc
  have hmode := tick_mode k sw b m
  have hstrike := tick_strike k sw b m
  have herror := tick_error k sw b m
  by_cases hl : LatchesInTick k b m
  · obtain ⟨hnone, hlatch⟩ : (b.chan m).error = .none ∧ latches (k.chan m) (b.chan m) = true := by
      simpa [latchesNow] using hl.2
    rw [if_pos hl] at herror
    rw [if_pos (.inl hl)] at hmode
    rw [if_pos ⟨hl.1, hnone⟩] at hstrike
    refine ⟨fun _ => ⟨hmode, ?_⟩, fun h => absurd (herror.symm.trans h) (by decide)⟩
    rw [hstrike]
    exact evaluate_strike_of_latches hhigh hlatch (hfree hnone)
  · rw [if_neg hl] at herror
    unfold Channel.LatchOk
    rw [herror, hstrike]
    refine ⟨fun hover => ?_, fun hnone => ?_⟩
    · obtain ⟨hdis, hcount⟩ := hlatched hover
      refine ⟨(tick_mode_disabled_or_same k sw b m).elim id (·.trans hdis), ?_⟩
      rw [if_neg fun hc => by rw [hover] at hc; cases hc.2]
      exact hcount
    · split
      next hs =>
        refine evaluate_strike_lt hlow hnone ?_
        simpa [LatchesInTick, latchesNow, hs.1, hnone] using hl
      · exact hfree hnone

/-- R129, R130, R147: every instruction keeps what a channel's latch promises; WR_MODE of a latched channel only disables. -/
theorem channelEffect_latchOk {k : Config} {b : Block} {m : Chan} {i : Instr} {c : Channel}
    (hwf : (k.chan m).wf = true) (h : ChannelEffect k b m i c) (hc : (b.chan m).LatchOk (k.chan m)) :
    c.LatchOk (k.chan m) := by
  cases h with
  | unchanged | pos | cmd => exact hc
  | edge l cap => rw [edge_chan]; exact hc
  | tick sw => exact tick_latchOk hwf sw hc
  | mode d v hfree =>
    exact ⟨fun hover => ⟨hfree.resolve_right fun hfree => hfree ((modeLocked_iff m b).2 (.inl hover)), (hc.1 hover).2⟩,
      hc.2⟩
  | clear =>
    obtain ⟨-, hlow, -⟩ := channelConfig_limits hwf
    exact ⟨fun h => absurd h (by simp), fun _ => hlow⟩

/-- After a tick with LrMismatch held or latched a Y channel is Disabled (R137, R147). -/
theorem tick_disabled_of_lrMismatch {k : Config} {sw : BitVec 6} {b : Block} {m : Chan} (hm : m ≠ .x)
    (hheld : b.yerr = .lrMismatch → (b.chan m).mode = .disabled) (h : (tick k sw b).yerr = .lrMismatch) :
    ((tick k sw b).chan m).mode = .disabled := by
  rw [tick_yerr] at h
  split at h
  next hmis => rw [tick_mode, if_pos (.inr ⟨hm, hmis⟩)]
  · rw [yerrBefore_eq] at h
    split at h
    · cases h
    · exact (tick_mode_disabled_or_same k sw b m).elim id (·.trans (hheld h))

/-- A tick drops no Overload latch (R130). -/
theorem tick_error_of_latched {k : Config} {b : Block} {m : Chan} (sw : BitVec 6) (h : (b.chan m).error = .overload) :
    ((tick k sw b).chan m).error = .overload := by rw [tick_error, h, ite_self]

/-- After a tick with a Y fault of Overload a Y channel is latched (R129, R176). -/
theorem tick_latched_of_overload {k : Config} {sw : BitVec 6} {b : Block}
    (hheld : b.yerr = .overload → b.yl.error = .overload ∨ b.yr.error = .overload)
    (h : (tick k sw b).yerr = .overload) : (tick k sw b).yl.error = .overload ∨ (tick k sw b).yr.error = .overload := by
  rw [tick_yerr] at h
  split at h
  · cases h
  · rw [yerrBefore_eq] at h
    split at h
    next hnew =>
      obtain ⟨-, hs, hl | hr⟩ := hnew
      · exact .inl ((tick_error k sw b .yl).trans (if_pos ⟨hs, hl⟩))
      · exact .inr ((tick_error k sw b .yr).trans (if_pos ⟨hs, hr⟩))
    · exact (hheld h).imp (tick_error_of_latched (m := .yl) sw) (tick_error_of_latched (m := .yr) sw)

/-- After a tick with a Y channel latched there is a Y fault (R129, R137). -/
theorem tick_yerr_of_latched {k : Config} {sw : BitVec 6} {b : Block} {m : Chan} (hm : m ≠ .x)
    (hheld : (b.chan m).error = .overload → b.yerr ≠ .none) (h : ((tick k sw b).chan m).error = .overload) :
    (tick k sw b).yerr ≠ .none := by
  have hbefore : yerrBefore k b ≠ .none := by
    by_cases hy : b.yerr = .none
    · rw [tick_error] at h
      split at h
      next hl => rw [yerrBefore_of_latch hm hy hl]; decide
      · exact absurd hy (hheld h)
    · rwa [yerrBefore_of_held hy]
  rw [tick_yerr, if_neg fun hc => hbefore hc.1]
  exact hbefore

/-- A tick keeps the Y fault in step with the Y channels' latches and modes. -/
theorem tick_yLatchOk (k : Config) (sw : BitVec 6) {b : Block} (h : b.YLatchOk) : (tick k sw b).YLatchOk := by
  obtain ⟨hmismatch, hoverload, hheld⟩ := h
  refine ⟨fun hy => ⟨?_, ?_⟩, tick_latched_of_overload hoverload, fun he => he.elim (fun hl => ?_) fun hr => ?_⟩
  · exact tick_disabled_of_lrMismatch (m := .yl) (by decide) (fun h => (hmismatch h).1) hy
  · exact tick_disabled_of_lrMismatch (m := .yr) (by decide) (fun h => (hmismatch h).2) hy
  · exact tick_yerr_of_latched (m := .yl) (by decide) (fun h => hheld (.inl h)) hl
  · exact tick_yerr_of_latched (m := .yr) (by decide) (fun h => hheld (.inr h)) hr

/-- The Y rules read modes, errors and the Y fault only. -/
theorem yLatchOk_congr {b b' : Block} (h : b.YLatchOk) (hy : b'.yerr = b.yerr)
    (hl : b'.yl.mode = b.yl.mode ∧ b'.yl.error = b.yl.error) (hr : b'.yr.mode = b.yr.mode ∧ b'.yr.error = b.yr.error) :
    b'.YLatchOk := by
  unfold Block.YLatchOk
  rw [hy, hl.1, hl.2, hr.1, hr.2]
  exact h

/-- A record written with the mode and the error it had keeps the Y rules. -/
theorem yLatchOk_setChan {b : Block} (h : b.YLatchOk) (m : Chan) {c : Channel} (hmode : c.mode = (b.chan m).mode)
    (herror : c.error = (b.chan m).error) : (b.setChan m c).YLatchOk := by
  cases m with
  | x => exact h
  | yl => exact yLatchOk_congr h rfl ⟨hmode, herror⟩ ⟨rfl, rfl⟩
  | yr => exact yLatchOk_congr h rfl ⟨rfl, rfl⟩ ⟨hmode, herror⟩

/-- A WR_MODE that no latch refuses keeps the Y rules: beside LrMismatch it disables (R147). -/
theorem yLatchOk_setMode {b : Block} (h : b.YLatchOk) (m : Chan) {v : Mode}
    (hfree : v = .disabled ∨ ¬ modeLocked m b = true) : (b.setChan m { b.chan m with mode := v }).YLatchOk := by
  obtain ⟨hmismatch, hrest⟩ := h
  have hv : m ≠ .x → b.yerr = .lrMismatch → v = .disabled := fun hm hy =>
    hfree.resolve_right fun hfree => hfree ((modeLocked_iff m b).2 (.inr ⟨hm, hy⟩))
  cases m with
  | x => exact ⟨hmismatch, hrest⟩
  | yl => exact ⟨fun hy => ⟨hv (by decide) hy, (hmismatch hy).2⟩, hrest⟩
  | yr => exact ⟨fun hy => ⟨(hmismatch hy).1, hv (by decide) hy⟩, hrest⟩

/-- R129, R137, R147, R149: every instruction keeps the Y fault in step with the Y channels. -/
theorem effect_yLatchOk {k : Config} {b b' : Block} {i : Instr} (he : Effect k b i b') (h : b.YLatchOk) : b'.YLatchOk := by
  cases he with
  | unchanged | ovf => exact h
  | edge m l cap =>
    have hc := edge_chan k m l cap b
    rw [edge, setChan_chan_same] at hc
    exact yLatchOk_setChan h m (by rw [hc]) (by rw [hc])
  | tick sw => exact tick_yLatchOk k sw h
  | pos m d => exact yLatchOk_setChan h m rfl rfl
  | cmdX d => exact yLatchOk_setChan h .x rfl rfl
  | cmdYl d => exact yLatchOk_setChan h .yl rfl rfl
  | mode m d v hfree => exact yLatchOk_setMode h m hfree
  | clear =>
    rcases clearFaults_cases k b with hc | hc <;> rw [hc]
    · exact h
    · exact ⟨(nomatch ·), (nomatch ·), fun herr => herr.elim (nomatch ·) (nomatch ·)⟩

/-- The divider counts up to `SUBRATE_N` and returns to 0 (R85). -/
theorem tick_phaseOk {k : Config} (hwf : k.wf = true) (sw : BitVec 6) {b : Block} (h : b.PhaseOk k) :
    (tick k sw b).PhaseOk k := by
  obtain ⟨-, hlow, -⟩ := (config_wf_iff k).1 hwf
  obtain ⟨-, -, -, hphase, -⟩ := tick_globals k sw b
  unfold Block.PhaseOk at h ⊢
  rw [hphase]
  split
  · exact hlow
  next hs =>
    have hs : b.tickPhase.toNat + 1 ≠ k.subrateN := by simpa [subrateTick] using hs
    rw [BitVec.toNat_ofNat]
    exact (Nat.mod_le _ _).trans_lt (by omega)

/-- Only a tick moves the divider (R50). -/
theorem effect_tickPhase {k : Config} {b b' : Block} {i : Instr} (he : Effect k b i b') :
    b'.tickPhase = b.tickPhase ∨ ∃ sw, i = .tick sw ∧ b' = tick k sw b := by
  cases he with
  | unchanged | ovf | cmdX | cmdYl => exact .inl rfl
  | edge | pos | mode => exact .inl (setChan_tickPhase _ _ _)
  | tick sw => exact .inr ⟨sw, rfl, rfl⟩
  | clear => rcases clearFaults_cases k b with hc | hc <;> rw [hc] <;> exact .inl rfl

theorem effect_phaseOk {k : Config} {b b' : Block} {i : Instr} (hwf : k.wf = true) (he : Effect k b i b')
    (h : b.PhaseOk k) : b'.PhaseOk k := by
  rcases effect_tickPhase he with hp | ⟨sw, -, rfl⟩
  · unfold Block.PhaseOk
    rwa [hp]
  · exact tick_phaseOk hwf sw h

/-- Only a tick and CLEAR write the Y fault (R47). -/
theorem effect_yerr {k : Config} {b b' : Block} {i : Instr} (he : Effect k b i b') :
    b'.yerr = b.yerr ∨ (∃ sw, i = .tick sw ∧ b' = tick k sw b) ∨ (i = .wrCtrl 1 ∧ b'.yerr = .none) := by
  cases he with
  | unchanged | ovf | cmdX | cmdYl => exact .inl rfl
  | edge | pos | mode => exact .inl (setChan_yerr _ _ _)
  | tick sw => exact .inr (.inl ⟨sw, rfl, rfl⟩)
  | clear =>
    rcases clearFaults_cases k b with hc | hc <;> rw [hc]
    · exact .inl rfl
    · exact .inr (.inr ⟨rfl, rfl⟩)

/-! ### X beside the Y axis -/

/-- Two machines agree on all that X evolves from: its parameters and record, `SUBRATE_N`, the overflow count and the divider. -/
structure SameX (k k' : Config) (b b' : Block) : Prop where
  params : k.x = k'.x
  subrate : k.subrateN = k'.subrateN
  chan : b.x = b'.x
  ovf : b.ovfCnt = b'.ovfCnt
  phase : b.tickPhase = b'.tickPhase

/-- Any two writes to the record of a Y channel keep the agreement. -/
theorem sameX_setChan_y {k k' : Config} {b b' : Block} (h : SameX k k' b b') {m : Chan} (hm : m ≠ .x) (c c' : Channel) :
    SameX k k' (b.setChan m c) (b'.setChan m c') := by
  cases m with
  | x => exact absurd rfl hm
  | yl | yr => exact ⟨h.params, h.subrate, h.chan, h.ovf, h.phase⟩

/-- A write to channel m keeps the agreement when it writes the same record to both X channels. -/
theorem sameX_setChan {k k' : Config} {b b' : Block} (h : SameX k k' b b') (m : Chan) {c c' : Channel}
    (hc : m = .x → c = c') : SameX k k' (b.setChan m c) (b'.setChan m c') := by
  by_cases hm : m = .x
  · subst hm
    exact ⟨h.params, h.subrate, hc rfl, h.ovf, h.phase⟩
  · exact sameX_setChan_y h hm c c'

theorem sameX_edge {k k' : Config} {b b' : Block} (h : SameX k k' b b') (m : Chan) (l : Bool) (cap : Capture) :
    SameX k k' (edge k m l cap b) (edge k' m l cap b') := by
  refine sameX_setChan h m fun hm => ?_
  subst hm
  rw [cfg_chan_x, cfg_chan_x, chan_x, chan_x, h.params, h.chan, h.ovf]

/-- X after a tick: its controller, without a cap, on the X record the detector and the estimator leave (R83). -/
theorem tick_x (k : Config) (sw : BitVec 6) (b : Block) :
    (tick k sw b).x = control k.x none (readyChannel k (subrateTick k b) sw .x b.x) := by
  rcases tick_control_or_brake k sw b .x with ⟨-, h⟩ | ⟨hx, -⟩
  · rwa [controlInput_x] at h
  · exact absurd rfl hx

theorem sameX_tick {k k' : Config} {b b' : Block} (h : SameX k k' b b') (sw : BitVec 6) :
    SameX k k' (tick k sw b) (tick k' sw b') := by
  obtain ⟨-, -, hovf, hphase, -⟩ := tick_globals k sw b
  obtain ⟨-, -, hovf', hphase', -⟩ := tick_globals k' sw b'
  have hsub : subrateTick k b = subrateTick k' b' := by rw [subrateTick, subrateTick, h.phase, h.subrate]
  have hready (c : Channel) (sub : Bool) : readyChannel k sub sw .x c = readyChannel k' sub sw .x c := by
    rw [readyChannel, readyChannel, cfg_chan_x, cfg_chan_x, h.params, h.subrate]
  refine ⟨h.params, h.subrate, ?_, ?_, ?_⟩
  · rw [tick_x, tick_x, h.params, h.chan, hsub, hready]
  · rw [hovf, hovf', h.ovf]
  · rw [hphase, hphase', hsub, h.phase]

/-- No latch of the Y axis locks X's mode (R147). -/
theorem modeLocked_x_congr {b b' : Block} (h : b.x = b'.x) : modeLocked .x b = modeLocked .x b' :=
  Bool.eq_iff_iff.2 (by simp only [modeLocked_iff, chan_x, h, ne_eq, not_true, false_and])

/-- Two machines with the same X record answer a WR_MODE.X alike (R147). -/
theorem writeMode_x_congr (d : Word) {s s' : State} (h : s.blk.x = s'.blk.x) :
    (∃ v, writeMode .x d s = s.finishWrite (s.blk.setChan .x { s.blk.chan .x with mode := v }) ∧
        writeMode .x d s' = s'.finishWrite (s'.blk.setChan .x { s'.blk.chan .x with mode := v })) ∨
      (writeMode .x d s = busErrorWrite s ∧ writeMode .x d s' = busErrorWrite s') := by
  unfold writeMode
  rw [modeLocked_x_congr h]
  split
  · exact .inr ⟨rfl, rfl⟩
  · split
    · exact .inr ⟨rfl, rfl⟩
    next v _ =>
      split
      · exact .inr ⟨rfl, rfl⟩
      · exact .inl ⟨v, rfl, rfl⟩

/-- A WR_MODE writes the record of its channel at most (R147). -/
theorem writeMode_setChan {m : Chan} {d : Word} {s t : State} (h : writeMode m d s = .next t) :
    t.cfg = s.cfg ∧ ∃ c, t.blk = s.blk.setChan m c := by
  rcases writeMode_cases m d s with ⟨v, -, -, -, hw⟩ | ⟨-, hw⟩ <;> rw [hw] at h <;> cases h
  · exact ⟨rfl, _, rfl⟩
  · exact ⟨rfl, _, (setChan_chan_self _ m).symm⟩

theorem sameX_writeMode {s s' t t' : State} (h : SameX s.cfg s'.cfg s.blk s'.blk) {m : Chan} {d : Word}
    (ht : writeMode m d s = .next t) (ht' : writeMode m d s' = .next t') : SameX t.cfg t'.cfg t.blk t'.blk := by
  by_cases hm : m = .x
  · subst hm
    rcases writeMode_x_congr d h.chan with ⟨v, hw, hw'⟩ | ⟨hw, hw'⟩ <;> rw [hw] at ht <;> rw [hw'] at ht' <;>
      cases ht <;> cases ht'
    · exact sameX_setChan h .x fun _ => by rw [chan_x, chan_x, h.chan]
    · exact h
  · obtain ⟨hk, c, hb⟩ := writeMode_setChan ht
    obtain ⟨hk', c', hb'⟩ := writeMode_setChan ht'
    rw [hk, hk', hb, hb']
    exact sameX_setChan_y h hm c c'

/-- Outside WR_CTRL every instruction keeps the agreement (R24, R83). -/
theorem sameX_exec {i : Instr} (hi : ∀ d, i ≠ .wrCtrl d) {s s' t t' : State} (h : SameX s.cfg s'.cfg s.blk s'.blk)
    (ht : exec i s = .next t) (ht' : exec i s' = .next t') : SameX t.cfg t'.cfg t.blk t'.blk := by
  rcases Instr.shape i with ⟨m, l, cap, rfl⟩ | rfl | ⟨sw, rfl⟩ | ⟨m, d, rfl⟩ | ⟨d, rfl⟩ | ⟨d, rfl⟩ | ⟨m, d, rfl⟩ | ⟨d, rfl⟩ |
    ⟨m, r, rfl⟩ | ⟨g, rfl⟩
  · rw [exec_edge] at ht ht'; cases ht; cases ht'
    exact sameX_edge h m l cap
  · cases ht; cases ht'
    exact ⟨h.params, h.subrate, h.chan, by rw [overflow_ovfCnt, overflow_ovfCnt, h.ovf], h.phase⟩
  · rw [exec_tick] at ht ht'; cases ht; cases ht'
    exact sameX_tick h sw
  · rw [exec_wrPos] at ht ht'; cases ht; cases ht'
    exact sameX_setChan h m fun hm => by subst hm; rw [chan_x, chan_x, h.chan]
  · cases ht; cases ht'
    exact sameX_setChan h .x fun _ => by rw [chan_x, chan_x, h.chan]
  · cases ht; cases ht'
    exact sameX_setChan_y h (m := .yl) (by decide) _ _
  · rw [exec_wrMode] at ht ht'
    exact sameX_writeMode h ht ht'
  · exact absurd rfl (hi d)
  · rw [exec_rd] at ht ht'; cases ht; cases ht'
    exact h
  · rw [exec_rdGlobal] at ht ht'; cases ht; cases ht'
    exact h

/-! ### The Y axis through a TICK -/

/-- A channel that a tick latches ends Disabled and braked, and with a zero integral where its controller ran (R104, R129). -/
theorem tick_latched {k : Config} {b : Block} {m : Chan} (sw : BitVec 6) (hl : LatchesInTick k b m) :
    ((tick k sw b).chan m).mode = .disabled ∧ Braked (k.chan m) ((tick k sw b).chan m) ∧
      (m = .x ∨ (divergence b).natAbs < k.mismatchLimit → ((tick k sw b).chan m).integ = 0) := by
  refine ⟨by rw [tick_mode, if_pos (.inl hl)], ?_⟩
  have hin := controlInput_mode k sw b m
  rw [if_pos hl] at hin
  rcases tick_control_or_brake k sw b m with ⟨-, h⟩ | ⟨hm, hd, h⟩ <;> rw [h]
  · rw [control_gate (by rw [hin]; decide)]
    exact ⟨braked_gateExit _ _, fun _ => rfl⟩
  · exact ⟨braked_brakeOutputs _ _, fun hrun => hrun.elim (absurd · hm) (by omega)⟩

/-- A held Y fault and a Y channel's latch of the same tick each come before the mismatch (R47, R176). -/
theorem not_mismatchInTick {k : Config} {b : Block} (h : b.yerr ≠ .none ∨ ∃ m, m ≠ .x ∧ LatchesInTick k b m) :
    ¬ MismatchInTick k b := by
  rintro ⟨hnone, -⟩
  by_cases hy : b.yerr = .none
  · obtain ⟨m, hm, hl⟩ := h.resolve_left (not_not.2 hy)
    rw [yerrBefore_of_latch hm hy hl] at hnone
    cases hnone
  · exact hy (yerrBefore_of_held hy ▸ hnone)

/-- A Y channel's latch of the tick becomes the Y fault when none is held (R129, R176). -/
theorem tick_yerr_of_latch {k : Config} {b : Block} {m : Chan} (sw : BitVec 6) (hm : m ≠ .x)
    (hl : LatchesInTick k b m) (hy : b.yerr = .none) : (tick k sw b).yerr = .overload := by
  rw [tick_yerr, if_neg (not_mismatchInTick (.inr ⟨m, hm, hl⟩)), yerrBefore_of_latch hm hy hl]

/-- A held Y fault stands through a tick (R47). -/
theorem tick_yerr_of_held {k : Config} {b : Block} (sw : BitVec 6) (h : b.yerr ≠ .none) :
    (tick k sw b).yerr = b.yerr := by
  rw [tick_yerr, if_neg (not_mismatchInTick (.inl h)), yerrBefore_of_held h]

/-- Where a tick latches no LrMismatch, a channel's mode is Disabled if it latched and its own otherwise (R129, R137). -/
theorem tick_mode_of_no_mismatch {k : Config} {b : Block} (sw : BitVec 6) (m : Chan) (h : ¬ MismatchInTick k b) :
    ((tick k sw b).chan m).mode = if LatchesInTick k b m then .disabled else (b.chan m).mode := by
  rw [tick_mode]
  simp only [h, and_false, or_false]

/-- A tick at the limit brakes a Y channel and runs no controller on it (R137). -/
theorem tick_trips {k : Config} {b : Block} {m : Chan} (sw : BitVec 6) (hd : k.mismatchLimit ≤ (divergence b).natAbs)
    (hm : m ≠ .x) : Braked (k.chan m) ((tick k sw b).chan m) ∧ ((tick k sw b).chan m).pos = (b.chan m).pos ∧
      ((tick k sw b).chan m).err = (b.chan m).err ∧ ((tick k sw b).chan m).efferr = (b.chan m).efferr ∧
      ((tick k sw b).chan m).integ = (b.chan m).integ := by
  obtain ⟨hpos, herr, hefferr, -, hinteg, -⟩ := controlInput_keeps k sw b m
  rcases tick_control_or_brake k sw b m with ⟨hrun, -⟩ | ⟨-, -, h⟩
  · exact hrun.elim (absurd · hm) (by omega)
  · rw [h]
    exact ⟨braked_brakeOutputs _ _, hpos, herr, hefferr, hinteg⟩

/-- Where a tick does not trip, a channel that ends in PositionControl ran its controller, enabled (R83, R103). -/
theorem tick_enabled {k : Config} {sw : BitVec 6} {b : Block} {m : Chan}
    (hd : m = .x ∨ (divergence b).natAbs < k.mismatchLimit) (h : ((tick k sw b).chan m).mode = .positionControl) :
    (controlInput k sw b m).mode = .positionControl ∧
      (tick k sw b).chan m = control (k.chan m) (controlCap b m) (controlInput k sw b m) := by
  rcases tick_control_or_brake k sw b m with ⟨-, ht⟩ | ⟨hm, htrip, -⟩
  · refine ⟨?_, ht⟩
    rwa [ht, control_mode] at h
  · exact hd.elim (absurd · hm) (by omega)

/-- The errors a tick leaves in a channel that ends in PositionControl are one error, without and with the cap (R107). -/
theorem tick_errors {k : Config} {sw : BitVec 6} {b : Block} {m : Chan}
    (hd : m = .x ∨ (divergence b).natAbs < k.mismatchLimit) (h : ((tick k sw b).chan m).mode = .positionControl) :
    ∃ own, InI32 own ∧ ((tick k sw b).chan m).err = u32 own ∧
      ((tick k sw b).chan m).efferr = u32 (effectiveError (controlCap b m) own) := by
  obtain ⟨hin, ht⟩ := tick_enabled hd h
  obtain ⟨-, -, herr, hefferr⟩ := control_prepared (k := k.chan m) (cap := controlCap b m) hin
  rw [ht, herr, hefferr]
  exact prepare_errors _ _ _

/-- The slave's command after a tick in which its controller did not run enabled is the master's before it (R135). -/
theorem tick_yr_cmd_copied {k : Config} {sw : BitVec 6} {b : Block}
    (h : (tick k sw b).yr.mode ≠ .positionControl ∨ k.mismatchLimit ≤ (divergence b).natAbs) :
    (tick k sw b).yr.cmd = b.yl.cmd := by
  change ((tick k sw b).chan .yr).mode ≠ _ ∨ _ at h
  change ((tick k sw b).chan .yr).cmd = _
  rcases tick_control_or_brake k sw b .yr with ⟨hrun, ht⟩ | ⟨-, -, ht⟩
  · have hlt : (divergence b).natAbs < k.mismatchLimit := hrun.resolve_left (by decide)
    have hmode := h.resolve_right (by omega)
    rw [ht, control_mode] at hmode
    rw [ht, control_gate hmode]
    rfl
  · rw [ht]; rfl

/-- The slave's command after its controller ran enabled is the master's, clamped by the slave's bounds (R105, R135). -/
theorem tick_yr_cmd_clamped {k : Config} {sw : BitVec 6} {b : Block} (hd : (divergence b).natAbs < k.mismatchLimit)
    (h : (tick k sw b).yr.mode = .positionControl) :
    (tick k sw b).yr.cmd = u32 (clamp b.yl.cmd.toNat k.yr.boundary ((k.yr.length : Int) - k.yr.boundary)) := by
  obtain ⟨hin, ht⟩ := tick_enabled (m := .yr) (.inr hd) h
  obtain ⟨-, hcmd, -⟩ := control_prepared (k := k.chan .yr) (cap := controlCap b .yr) hin
  rw [← chan_yr (tick k sw b), ht, hcmd, prepare_cmd]
  rfl

/-- The clamped command fits its register (R9, R105). -/
theorem toNat_clampedCommand {k : ChannelConfig} (hwf : k.wf = true) (v : Int) :
    ((u32 (clamp v k.boundary ((k.length : Int) - k.boundary))).toNat : Int) =
      clamp v k.boundary ((k.length : Int) - k.boundary) := by
  obtain ⟨-, hlimits, -⟩ := (channelConfig_wf_iff k).1 hwf
  obtain ⟨hroom, hlength, -⟩ := (limitsOk_iff k).1 hlimits
  obtain ⟨hlo, hhi⟩ := clamp_range (v := v) (lo := k.boundary) (hi := (k.length : Int) - k.boundary) (by omega)
  exact toNat_u32 (by omega) (by omega)

/-! ### The invariants of a step, and of the state after reset -/

theorem step_driveOk (s t : State) (hs : s.DriveOk) (h : step s = .next t) : t.DriveOk :=
  step_keeps_channels (P := fun k c => c.DriveOk k) (fun _ _ _ _ _ => channelEffect_driveOk) h hs

theorem step_integralOk (s t : State) (hs : s.IntegralOk) (h : step s = .next t) : t.IntegralOk :=
  step_keeps_channels (P := fun k c => c.IntegralOk k) (fun _ _ _ _ _ => channelEffect_integralOk) h hs

theorem step_optionsOk (s t : State) (hs : s.OptionsOk) (h : step s = .next t) : t.OptionsOk :=
  step_keeps_channels (P := fun k c => c.OptionsOk k) (fun _ _ _ _ _ _ => channelEffect_optionsOk) h hs

theorem step_rangesOk (s t : State) (hs : s.RangesOk) (h : step s = .next t) : t.RangesOk := by
  refine ⟨step_keeps_channels (P := fun k c => c.RangesOk k) (fun _ _ _ _ _ => channelEffect_rangesOk) h hs.1, ?_⟩
  obtain ⟨hwf, hcfg, hb | ⟨i, he⟩⟩ := step_effect h <;> rw [hcfg]
  · rw [hb]; exact hs.2
  · exact effect_phaseOk hwf he hs.2

theorem step_latchOk (s t : State) (hs : s.LatchOk) (h : step s = .next t) : t.LatchOk := by
  refine ⟨step_keeps_channels (P := fun k c => c.LatchOk k) (fun _ _ _ _ _ => channelEffect_latchOk) h hs.1, ?_⟩
  obtain ⟨-, -, hb | ⟨i, he⟩⟩ := step_effect h
  · rw [hb]; exact hs.2
  · exact effect_yLatchOk he hs.2

theorem step_safe (s t : State) (hs : s.Safe) (h : step s = .next t) : t.Safe := by
  obtain ⟨hwf, hdrive, hintegral, hranges, hlatch, hoptions⟩ := hs
  obtain ⟨-, hcfg, -⟩ := step_effect h
  exact ⟨hcfg ▸ hwf, step_driveOk s t hdrive h, step_integralOk s t hintegral h, step_rangesOk s t hranges h,
    step_latchOk s t hlatch h, step_optionsOk s t hoptions h⟩

theorem resetWith_chan (k : Config) (m : Chan) : (State.resetWith k).blk.chan m = Channel.resetWith (k.chan m) := by
  cases m <;> rfl

theorem resetWith_braked (k : Config) (m : Chan) : Braked (k.chan m) ((State.resetWith k).blk.chan m) := by
  rw [resetWith_chan]; exact ⟨rfl, rfl, rfl⟩

theorem resetWith_driveOk (k : Config) : (State.resetWith k).DriveOk := fun m => driveOk_of_braked (resetWith_braked k m)

theorem resetWith_integralOk (k : Config) : (State.resetWith k).IntegralOk := fun m => by
  rw [resetWith_chan]; exact Nat.zero_le _

theorem resetWith_rangesOk {k : Config} (hwf : k.wf = true) : (State.resetWith k).RangesOk := by
  obtain ⟨hchan, hsub, -⟩ := (config_wf_iff k).1 hwf
  refine ⟨fun m => ?_, hsub⟩
  obtain ⟨-, -, hbrake⟩ := channelConfig_drive (hchan m)
  exact rangesOk_of_braked hbrake (resetWith_braked k m)

theorem resetWith_latchOk {k : Config} (hwf : k.wf = true) : (State.resetWith k).LatchOk := by
  obtain ⟨hchan, -⟩ := (config_wf_iff k).1 hwf
  refine ⟨fun m => ?_, (nomatch ·), (nomatch ·), fun he => he.elim (nomatch ·) (nomatch ·)⟩
  obtain ⟨-, hlow, -⟩ := channelConfig_limits (hchan m)
  rw [resetWith_chan]; exact ⟨(nomatch ·), fun _ => hlow⟩

theorem resetWith_optionsOk (k : Config) : (State.resetWith k).OptionsOk := fun m => by
  rw [resetWith_chan]; exact ⟨fun _ => ⟨rfl, rfl⟩, fun _ => rfl⟩

/-! ### The statements of the family -/

/-- Settles O54: the agreement on X is kept by every instruction but WR_CTRL, the tick's X controller and WR_MODE.X included. -/
theorem xDoesNotDependOnY : Obligations.XDoesNotDependOnY := by
  intro i s s' t t' hi hparams hsub hx hovf hphase ht ht'
  have h := sameX_exec hi ⟨hparams, hsub, hx, hovf, hphase⟩ ht ht'
  exact ⟨h.chan, h.ovf, h.phase⟩

/-- Settles O55: a tick ends braked or driving, and no other instruction writes the outputs. -/
theorem everyStepKeepsTheDriveRule : Obligations.EveryStepKeepsTheDriveRule :=
  ⟨fun k _ => resetWith_driveOk k, step_driveOk⟩

/-- Settles O58: the channels' latches and the Y fault, each kept by every instruction. -/
theorem everyStepKeepsTheLatches : Obligations.EveryStepKeepsTheLatches := step_latchOk

/-- Settles O60, by induction on the number of steps. -/
theorem everyRunStaysSafe : Obligations.EveryRunStaysSafe := fun n _ _ hs h =>
  run_keeps (M := Sys2Proof.core) step_safe n hs h

/-- Settles O25: the latch disables the channel before its controller, whose gate then brakes it, and comes before the trip. -/
theorem overloadTakesEffectInItsTick : Obligations.OverloadTakesEffectInItsTick := by
  intro s t sw m ht hnone hover
  rw [exec_tick] at ht; cases ht
  have hl : LatchesInTick s.cfg s.blk m := (tick_error_changed s.cfg sw s.blk m).1 (by rw [hnone, hover]; decide)
  obtain ⟨hmode, hbraked, hinteg⟩ := tick_latched sw hl
  refine ⟨hmode, hbraked, hinteg, fun hm => ⟨tick_yerr_of_latch sw hm hl, tick_yerr_of_held sw, fun n _ hsame => ?_⟩⟩
  rw [tick_mode_of_no_mismatch sw n (not_mismatchInTick (.inr ⟨m, hm, hl⟩)),
    if_neg fun hln => (tick_error_changed _ sw _ n).2 hln hsame]

/-- Settles O36: the trip skips both controllers, and latches LrMismatch only where neither a held fault nor a latch of the same
tick comes first. -/
theorem mismatchTripsTheYAxis : Obligations.MismatchTripsTheYAxis := by
  intro s sw hd
  refine ⟨_, exec_tick sw s, fun m hm => tick_trips sw hd hm, ?_⟩
  have hlatched (m : Chan) := tick_error_changed s.cfg sw s.blk m
  dsimp only
  simp only [hlatched]
  refine ⟨fun hy hl hr => ?_, tick_yerr_of_held sw, fun hy hl => ?_, fun h m hm => ?_⟩
  · have hquiet : ∀ m, m ≠ .x → ¬ LatchesInTick s.cfg s.blk m := fun m hm => by
      cases m with
      | x => exact absurd rfl hm
      | yl => exact hl
      | yr => exact hr
    have hmis : MismatchInTick s.cfg s.blk := ⟨(yerrBefore_of_quiet hquiet).trans hy, hd⟩
    have hdisabled {m : Chan} (hm : m ≠ .x) : ((tick s.cfg sw s.blk).chan m).mode = .disabled := by
      rw [tick_mode, if_pos (.inr ⟨hm, hmis⟩)]
    exact ⟨by rw [tick_yerr, if_pos hmis], hdisabled (m := .yl) (by decide), hdisabled (m := .yr) (by decide)⟩
  · rcases hl with hl | hr
    · exact tick_yerr_of_latch (m := .yl) sw (by decide) hl hy
    · exact tick_yerr_of_latch (m := .yr) sw (by decide) hr hy
  · have hno : ¬ MismatchInTick s.cfg s.blk := not_mismatchInTick <| h.imp_right fun hl =>
      hl.elim (fun hl => ⟨.yl, by decide, hl⟩) fun hr => ⟨.yr, by decide, hr⟩
    rw [tick_mode_of_no_mismatch sw m hno]
    exact ⟨fun hn => if_neg hn, fun hl => if_pos hl⟩

/-- Settles O37: an enabled channel records its own error, and beside it the same error with the cap applied. -/
theorem slaveErrorIsCappedByDivergence : Obligations.SlaveErrorIsCappedByDivergence := by
  intro s t sw _ ht hd
  rw [exec_tick] at ht; cases ht
  obtain ⟨hlr, -⟩ := tick_globals s.cfg sw s.blk
  refine ⟨fun h => ?_, fun h => ?_, fun h => ?_⟩
  · obtain ⟨own, ⟨hlo, hhi⟩, herr, hefferr⟩ := tick_errors (m := .yr) (.inr hd) h
    obtain ⟨hdlo, hdhi⟩ : InI32 (divergence s.blk) := sat32_range _
    change s32 ((tick s.cfg sw s.blk).chan .yr).efferr =
      min (s32 ((tick s.cfg sw s.blk).chan .yr).err) (s32 (tick s.cfg sw s.blk).lr)
    rw [herr, hefferr, hlr, controlCap, effectiveError, s32_u32 hlo hhi, s32_u32 hdlo hdhi, s32_u32 (by omega) (by omega)]
  · obtain ⟨own, -, herr, hefferr⟩ := tick_errors (m := .yl) (.inr hd) h
    exact hefferr.trans herr.symm
  · obtain ⟨own, -, herr, hefferr⟩ := tick_errors (m := .x) (.inl rfl) h
    exact hefferr.trans herr.symm

/-- Settles O38: the copy of the master's command, and its clamp by an enabled slave's controller. -/
theorem slaveCommandFollowsTheMaster : Obligations.SlaveCommandFollowsTheMaster := by
  intro s t sw hwf ht
  rw [exec_tick] at ht; cases ht
  refine ⟨tick_yr_cmd_copied, fun h hd => ?_⟩
  rw [tick_yr_cmd_clamped hd h]
  exact toNat_clampedCommand (((config_wf_iff _).1 hwf).1 .yr) _

/-- Settles O50: of an instruction's effects on a channel only EDGE, WR_POS and the tick's override touch the position. -/
theorem positionHasThreeWriters : Obligations.PositionHasThreeWriters := by
  intro i s t m ht hpos
  have he := (exec_effect ht).channel m
  generalize t.blk.chan m = c at he hpos ⊢
  cases he with
  | unchanged | cmd | mode | clear => exact absurd rfl hpos
  | edge l cap => exact .inl ⟨l, cap, rfl⟩
  | tick sw => exact .inr (.inr ⟨sw, rfl, tick_pos_changed hpos⟩)
  | pos d => exact .inr (.inl ⟨d, rfl⟩)

/-- Settles O51: a tick only disables, and no other instruction but the channel's WR_MODE writes a mode. -/
theorem onlyWriteModeEnables : Obligations.OnlyWriteModeEnables := by
  intro i s t m ht hmode henabled
  have he := (exec_effect ht).channel m
  generalize t.blk.chan m = c at he hmode henabled
  cases he with
  | unchanged | pos | cmd | clear => exact absurd rfl hmode
  | edge l cap => rw [edge_chan] at hmode; exact absurd rfl hmode
  | tick sw => exact (tick_mode_disabled_or_same s.cfg sw s.blk m).elim (absurd · henabled) (absurd · hmode)
  | mode d v => exact ⟨d, rfl⟩

/-- Settles O52: a tick drops no latch, and no other instruction but CLEAR writes one. -/
theorem overloadHoldsUntilClear : Obligations.OverloadHoldsUntilClear := by
  intro i s t m ht hover hnone
  have he := (exec_effect ht).channel m
  generalize t.blk.chan m = c at he hnone
  cases he with
  | unchanged | pos | cmd | mode => exact absurd (hover.symm.trans hnone) (by decide)
  | edge l cap => rw [edge_chan] at hnone; exact absurd (hover.symm.trans hnone) (by decide)
  | tick sw => exact absurd ((tick_error_of_latched sw hover).symm.trans hnone) (by decide)
  | clear => rfl

/-- Settles O53: a tick leaves a held Y fault, and CLEAR alone takes it away. -/
theorem firstYFaultWins : Obligations.FirstYFaultWins := by
  intro i s t ht hheld
  rcases effect_yerr (exec_effect ht) with h | ⟨sw, -, h⟩ | ⟨hi, h⟩
  · exact .inl h
  · rw [h]; exact .inl (tick_yerr_of_held sw hheld)
  · exact .inr ⟨h, hi⟩

/-- Settles O56: step 6 clamps the integral, and nothing else but a zero is ever written to it. -/
theorem everyStepKeepsTheIntegralBound : Obligations.EveryStepKeepsTheIntegralBound :=
  ⟨fun k _ => resetWith_integralOk k, step_integralOk⟩

/-- Settles O57: the outputs and the divider, each kept in range by every instruction. -/
theorem everyStepKeepsTheOutputRanges : Obligations.EveryStepKeepsTheOutputRanges := step_rangesOk

/-- Settles O59: a reset channel is braked, with no integral, no count and no stamp. -/
theorem resetIsSafe : Obligations.ResetIsSafe := fun k hwf =>
  ⟨hwf, resetWith_driveOk k, resetWith_integralOk k, resetWith_rangesOk hwf, resetWith_latchOk hwf, resetWith_optionsOk k⟩

end Sys2Proof.Machine

/-! ## The register space and the operation stream (spec/20_memory.md)

The words of each row at its address, what the decoder reads at the head of a stream, and what an operation may read: the lemmas
first, the statements of the family at the end. -/

namespace Sys2Proof.Machine

/-! ### The words of the rows, by address -/

theorem encode_edge (m : Chan) (b : Bool) (cap : Capture) :
    encode (Instr.edge m b cap) = [edgeWord (chanCode m) b cap] := by cases m <;> rfl

theorem encode_rd (m : Chan) (r : Reg) : encode (Instr.rd m r) = [readWord (regAddr m r)] := by
  cases m <;> cases r <;> rfl

theorem encode_rdGlobal (g : GReg) : encode (Instr.rdGlobal g) = [readWord (globalAddr g)] := by cases g <;> rfl

theorem encode_wrPos (m : Chan) (d : Word) : encode (Instr.wrPos m d) = [writeWord (regAddr m .pos), d] := by
  cases m <;> rfl

theorem encode_wrMode (m : Chan) (d : Word) : encode (Instr.wrMode m d) = [writeWord (regAddr m .mode), d] := by
  cases m <;> rfl

/-- Format R in Lean's own arithmetic (R75). -/
theorem readWord_eq_add (a : Addr) : readWord a = 0x50000000#32 + a.setWidth 32 := by
  apply BitVec.eq_of_toNat_eq
  have ha := a.isLt
  rw [readWord_toNat, BitVec.toNat_add, BitVec.toNat_setWidth, BitVec.toNat_ofNat]
  omega

/-- Format W's stimulus word in Lean's own arithmetic (R74). -/
theorem writeWord_eq_add (a : Addr) : writeWord a = 0x40000000#32 + a.setWidth 32 := by
  apply BitVec.eq_of_toNat_eq
  have ha := a.isLt
  rw [writeWord_toNat, BitVec.toNat_add, BitVec.toNat_setWidth, BitVec.toNat_ofNat]
  omega

/-- A channel block ends inside the register space, so that no address wraps (R57). -/
theorem regAddr_setWidth (m : Chan) (r : Reg) :
    (regAddr m r).setWidth 32 = (chanBase m).setWidth 32 + (regOffset r).setWidth 32 := by
  have hbase : (chanBase m).toNat ≤ 0x080 := by cases m <;> decide
  have hoffset : (regOffset r).toNat ≤ 0x034 := by cases r <;> decide
  apply BitVec.eq_of_toNat_eq
  simp only [regAddr, BitVec.toNat_add, BitVec.toNat_setWidth]
  omega

/-! ### What the decoder reads at the head of a stream -/

theorem decode_edge (m : Chan) (b : Bool) (cap : Capture) (rest : List Word) :
    decode (edgeWord (chanCode m) b cap :: rest) = .operation (.instr (Instr.edge m b cap)) rest := by
  simp only [decode, decodeWord_edgeWord]

theorem decode_tick (sw : BitVec 6) (rest : List Word) :
    decode (tickWord sw :: rest) = .operation (.instr (.tick sw)) rest := by
  simp only [decode, decodeWord_tickWord]

theorem decode_read (a : Addr) (rest : List Word) :
    decode (readWord a :: rest) = .operation (readOperation a) rest := by
  simp only [decode, decodeWord_readWord]

theorem decode_write (a : Addr) (d : Word) (rest : List Word) :
    decode (writeWord a :: d :: rest) = .operation (writeOperation a d) rest := by
  simp only [decode, decodeWord_writeWord]

theorem readOperation_regAddr (m : Chan) (r : Reg) : readOperation (regAddr m r) = .instr (Instr.rd m r) := by
  cases m <;> cases r <;> rfl

theorem readOperation_globalAddr (g : GReg) : readOperation (globalAddr g) = .instr (Instr.rdGlobal g) := by
  cases g <;> rfl

theorem writeOperation_pos (m : Chan) (d : Word) : writeOperation (regAddr m .pos) d = .instr (Instr.wrPos m d) := by
  cases m <;> rfl

theorem writeOperation_mode (m : Chan) (d : Word) : writeOperation (regAddr m .mode) d = .instr (Instr.wrMode m d) := by
  cases m <;> rfl

/-- The words of a row at the head of a stream decode to that row and leave the words after them (R69, R77). -/
theorem decode_encode_append (i : Instr) (rest : List Word) : decode (encode i ++ rest) = .operation (.instr i) rest := by
  rcases Instr.shape i with ⟨m, l, cap, rfl⟩ | rfl | ⟨sw, rfl⟩ | ⟨m, d, rfl⟩ | ⟨d, rfl⟩ | ⟨d, rfl⟩ | ⟨m, d, rfl⟩ | ⟨d, rfl⟩ |
    ⟨m, r, rfl⟩ | ⟨g, rfl⟩
  · rw [encode_edge]; exact decode_edge m l cap rest
  · rfl
  · exact decode_tick sw rest
  · rw [encode_wrPos, ← writeOperation_pos]; exact decode_write _ d rest
  · exact decode_write 0x004 d rest
  · exact decode_write 0x044 d rest
  · rw [encode_wrMode, ← writeOperation_mode]; exact decode_write _ d rest
  · exact decode_write 0x108 d rest
  · rw [encode_rd, ← readOperation_regAddr]; exact decode_read _ rest
  · rw [encode_rdGlobal, ← readOperation_globalAddr]; exact decode_read _ rest

/-- A step runs the operation the stream's head decodes to, on the state with its words taken off the stream (R61, R69). -/
theorem step_of_decode {s : State} {op : Operation} {rest : List Word} (hwf : s.cfg.wf = true)
    (hdecode : decode s.stimulus = .operation op rest) : step s = runOperation op { s with stimulus := rest } := by
  rw [step_valid hwf, fetchAndRun, hdecode]

/-! ### The cases of WR_MODE and WR_CTRL, from the word and the state -/

theorem writeMode_stores {m : Chan} {d : Word} {s : State} {v : Mode} (hreserved : field d 2 30 = 0)
    (hv : modeOfCode (field d 0 2) = some v) (hfree : v = .disabled ∨ modeLocked m s.blk = false) :
    writeMode m d s = s.finishWrite (s.blk.setChan m { s.blk.chan m with mode := v }) := by
  rw [writeMode, if_neg (not_not.2 hreserved), hv]
  exact if_neg fun ⟨hne, hlocked⟩ => hfree.elim hne fun hunlocked => by cases hlocked.symm.trans hunlocked

theorem writeMode_refuses {m : Chan} {d : Word} {s : State} (hbad : field d 2 30 ≠ 0 ∨ modeOfCode (field d 0 2) = none ∨
    ∃ v, modeOfCode (field d 0 2) = some v ∧ v ≠ .disabled ∧ modeLocked m s.blk = true) :
    writeMode m d s = busErrorWrite s := by
  unfold writeMode
  split
  next => rfl
  next hr =>
    rcases hbad with h | h | ⟨v, hv, hlocked⟩
    · exact absurd h hr
    · rw [h]
    · rw [hv]; exact if_pos hlocked

theorem writeCtrl_refuses {d : Word} (s : State) (h : field d 1 31 ≠ 0) : writeCtrl d s = busErrorWrite s := if_pos h

theorem writeCtrl_one (s : State) : writeCtrl 1 s = s.finishWrite (clearFaults s.cfg s.blk) := rfl

theorem writeCtrl_without_clear {d : Word} (s : State) (hreserved : field d 1 31 = 0) (hclear : d.getLsbD 0 = false) :
    writeCtrl d s = s.finishWrite s.blk := by
  rw [writeCtrl, if_neg (not_not.2 hreserved), hclear]; rfl

/-! ### What an instruction reads -/

/-- An instruction reads the configuration and the block alone: not the last response, and no word after its own (R63, R69). -/
theorem exec_reads_block (i : Instr) (s : State) :
    ∃ b r, ∀ u : State, u.cfg = s.cfg → u.blk = s.blk → exec i u = .next { u with blk := b, resp := r } := by
  rcases Instr.shape i with ⟨m, l, cap, rfl⟩ | rfl | ⟨sw, rfl⟩ | ⟨m, d, rfl⟩ | ⟨d, rfl⟩ | ⟨d, rfl⟩ | ⟨m, d, rfl⟩ | ⟨d, rfl⟩ |
    ⟨m, r, rfl⟩ | ⟨g, rfl⟩
  · exact ⟨edge s.cfg m l cap s.blk, none, fun u hc hb => by rw [exec_edge, ← hc, ← hb]⟩
  · exact ⟨overflow s.blk, none, fun u _ hb => hb ▸ rfl⟩
  · exact ⟨tick s.cfg sw s.blk, none, fun u hc hb => by rw [exec_tick, ← hc, ← hb]⟩
  · exact ⟨_, _, fun u _ hb => by rw [exec_wrPos, writePos, hb, finishWrite_eq]⟩
  · exact ⟨s.blk.setChan .x { s.blk.x with cmd := d }, some ⟨.okay, none⟩, fun u _ hb => hb ▸ rfl⟩
  · exact ⟨s.blk.setChan .yl { s.blk.yl with cmd := d }, some ⟨.okay, none⟩, fun u _ hb => hb ▸ rfl⟩
  · rcases writeMode_cases m d s with ⟨v, hreserved, hv, hfree, -⟩ | ⟨hbad, -⟩
    · exact ⟨_, _, fun u _ hb => by
        rw [exec_wrMode, writeMode_stores hreserved hv (hb.symm ▸ hfree), hb, finishWrite_eq]⟩
    · exact ⟨s.blk, some ⟨.err, none⟩, fun u _ hb => by
        rw [exec_wrMode, writeMode_refuses (hb.symm ▸ hbad), busErrorWrite_eq, ← hb]⟩
  · rcases writeCtrl_cases d s with ⟨hr, -⟩ | ⟨hr, hclear, -⟩ | ⟨hr, hclear, -⟩
    · exact ⟨s.blk, some ⟨.err, none⟩, fun u _ hb => hb ▸ writeCtrl_refuses u hr⟩
    · cases ctrl_word_of_clear hr hclear
      exact ⟨clearFaults s.cfg s.blk, some ⟨.okay, none⟩, fun u hc hb => hc ▸ hb ▸ writeCtrl_one u⟩
    · exact ⟨s.blk, some ⟨.okay, none⟩, fun u _ hb => hb ▸ writeCtrl_without_clear u hr hclear⟩
  · exact ⟨s.blk, some ⟨.okay, some (regWord (s.blk.chan m) r)⟩, fun u _ hb => by rw [exec_rd, ← hb]⟩
  · exact ⟨s.blk, some ⟨.okay, some (globalWord s.blk g)⟩, fun u _ hb => by rw [exec_rdGlobal, ← hb]⟩

/-- Whatever stands behind an instruction in the stream, it answers the same block and response (R63). -/
theorem exec_any_stream (i : Instr) (s : State) :
    ∃ b r, ∀ ws, exec i { s with stimulus := ws } = .next { s with blk := b, resp := r, stimulus := ws } := by
  obtain ⟨b, r, h⟩ := exec_reads_block i s
  exact ⟨b, r, fun ws => h { s with stimulus := ws } rfl rfl⟩

/-! ### Running a stream -/

theorem run_succ_of_next {M : Host.Core} {n : Nat} {s t : M.State} (h : M.step s = .next t) :
    M.run (n + 1) s = M.run n t := by
  rw [Host.Core.run, h]

/-- As many steps as a list of instructions is long run the instructions, in order, off a stream that begins with their words. -/
theorem run_encoded_stream (is : List Instr) (s : State) (rest : List Word) (hwf : s.cfg.wf = true) :
    Host.Core.run Sys2Proof.core is.length { s with stimulus := is.flatMap encode ++ rest } =
      runAll is { s with stimulus := rest } := by
  induction is generalizing s with
  | nil => rfl
  | cons i is ih =>
    obtain ⟨b, r, hexec⟩ := exec_any_stream i s
    have hdecode : decode ((i :: is).flatMap encode ++ rest) = .operation (.instr i) (is.flatMap encode ++ rest) := by
      rw [List.flatMap_cons, List.append_assoc, decode_encode_append]
    have hstep : step { s with stimulus := (i :: is).flatMap encode ++ rest } =
        .next { s with blk := b, resp := r, stimulus := is.flatMap encode ++ rest } :=
      (step_of_decode (s := { s with stimulus := (i :: is).flatMap encode ++ rest }) hwf hdecode).trans (hexec _)
    rw [runAll, hexec]
    exact (run_succ_of_next (M := Sys2Proof.core) hstep).trans (ih { s with blk := b, resp := r } hwf)

/-! ### A WRITE a second time -/

/-- The WRITE rows of the map (R78). -/
theorem isWrite_shape {i : Instr} (h : isWrite i = true) :
    (∃ m d, i = Instr.wrPos m d) ∨ (∃ d, i = .wrCmdX d) ∨ (∃ d, i = .wrCmdYl d) ∨ (∃ m d, i = Instr.wrMode m d) ∨
      ∃ d, i = .wrCtrl d := by
  rcases Instr.shape i with ⟨m, l, cap, rfl⟩ | rfl | ⟨sw, rfl⟩ | hpos | hcmdX | hcmdYl | hmode | hctrl | ⟨m, r, rfl⟩ | ⟨g, rfl⟩
  · rw [isWrite, encode_edge] at h; cases h
  · cases h
  · cases h
  · exact .inl hpos
  · exact .inr (.inl hcmdX)
  · exact .inr (.inr (.inl hcmdYl))
  · exact .inr (.inr (.inr (.inl hmode)))
  · exact .inr (.inr (.inr (.inr hctrl)))
  · rw [isWrite, encode_rd] at h; cases h
  · rw [isWrite, encode_rdGlobal] at h; cases h

theorem writePos_idempotent {m : Chan} {d : Word} {s t : State} (h : writePos m d s = .next t) :
    writePos m d t = .next t := by
  rw [writePos, finishWrite_eq] at h
  cases h
  simp only [writePos, finishWrite_eq, setChan_chan_same, setChan_setChan]

theorem writeCmd_idempotent {m : Chan} {d : Word} {s t : State} (h : writeCmd m d s = .next t) :
    writeCmd m d t = .next t := by
  rw [writeCmd, finishWrite_eq] at h
  cases h
  simp only [writeCmd, finishWrite_eq, setChan_chan_same, setChan_setChan]

/-- Storing a mode moves no latch, so that it locks no channel and frees none (R147). -/
theorem modeLocked_setChan_mode (m : Chan) (b : Block) (v : Mode) :
    modeLocked m (b.setChan m { b.chan m with mode := v }) = modeLocked m b := by
  simp only [modeLocked, setChan_chan_same, setChan_yerr]

theorem writeMode_idempotent {m : Chan} {d : Word} {s t : State} (h : writeMode m d s = .next t) :
    writeMode m d t = .next t := by
  rcases writeMode_cases m d s with ⟨v, hreserved, hv, hfree, hw⟩ | ⟨hbad, hw⟩ <;> rw [hw] at h <;> cases h
  · rw [← modeLocked_setChan_mode m s.blk v] at hfree
    rw [writeMode_stores hreserved hv hfree]
    simp only [finishWrite_eq, setChan_chan_same, setChan_setChan]
  · exact writeMode_refuses hbad

/-- A refused CLEAR is refused again, and an accepted one leaves nothing to clear (R149). -/
theorem clearFaults_idempotent (k : Config) (b : Block) : clearFaults k (clearFaults k b) = clearFaults k b := by
  by_cases h : b.yerr = .lrMismatch ∧ k.mismatchLimit ≤ (divergence b).natAbs
  · have hrefused : clearFaults k b = { b with clrRefused := true } := if_pos h
    rw [hrefused]
    exact if_pos h
  · have hcleared : clearFaults k b = { b with x := clearChannel b.x, yl := clearChannel b.yl, yr := clearChannel b.yr,
                                               yerr := .none, clrRefused := false } := if_neg h
    rw [hcleared]
    exact if_neg fun hlatched => YError.noConfusion hlatched.1

theorem writeCtrl_idempotent {d : Word} {s t : State} (h : writeCtrl d s = .next t) : writeCtrl d t = .next t := by
  rcases writeCtrl_cases d s with ⟨hr, hw⟩ | ⟨hr, hclear, hw⟩ | ⟨hr, hclear, hw⟩ <;> rw [hw] at h <;> cases h
  · exact writeCtrl_refuses _ hr
  · cases ctrl_word_of_clear hr hclear
    rw [writeCtrl_one]
    simp only [finishWrite_eq, clearFaults_idempotent]
  · exact writeCtrl_without_clear _ hr hclear

/-! ### A READ at an address -/

theorem readWord_eq_ofNat (a : Addr) : readWord a = BitVec.ofNat 32 (0x50000000 + a.toNat) := by
  rw [← readWord_toNat, BitVec.ofNat_toNat, BitVec.setWidth_eq]

theorem byteOfWord_eq (w : Word) (j : Nat) : byteOfWord w j = BitVec.ofNat 8 (w.toNat / 2 ^ (8 * j)) := by
  rw [byteOfWord, BitVec.extractLsb', Nat.shiftRight_eq_div_pow]

/-- The bytes of a register are at the four byte addresses from its own, the least significant first (R58). -/
theorem busByte_of_busWord {b : Block} {a : Addr} {w : Word} (haligned : a.toNat % 4 = 0) (hw : busWord b a = some w)
    (j : Fin 4) : busByte b (a + BitVec.ofNat 12 j) = some (BitVec.ofNat 8 (w.toNat / 2 ^ (8 * j.val))) := by
  have hsum : (a + BitVec.ofNat 12 j).toNat = a.toNat + j := by
    have ha := a.isLt
    rw [BitVec.toNat_add, BitVec.toNat_ofNat]
    omega
  have hbase : (a.toNat + j) / 4 * 4 = a.toNat := by omega
  have hbyte : (a.toNat + j) % 4 = j := by omega
  rw [busByte, hsum, hbase, hbyte, BitVec.ofNat_toNat, BitVec.setWidth_eq, hw, Option.map_some, byteOfWord_eq]

theorem readOperation_hole {a : Addr} (h : hole a.toNat) : readOperation a = .unmappedRead a := by
  rw [readOperation, (readMap_lookup_none _).2 h]

/-- The operation at an address outside the holes answers OKAY with the word on the bus there (R143). -/
theorem readOperation_answers {a : Addr} (h : ¬ hole a.toNat) (s : State) :
    ∃ w, busWord s.blk a = some w ∧ runOperation (readOperation a) s = .next { s with resp := some ⟨.okay, some w⟩ } := by
  obtain ⟨i, hi⟩ := Option.ne_none_iff_exists'.1 (mt (readMap_lookup_none _).1 h)
  rcases readMap_lookup_some hi with ⟨m, r, -, rfl⟩ | ⟨g, -, rfl⟩
  · rw [readOperation_regAddr]; exact ⟨_, busWord_reg s.blk m r, exec_rd m r s⟩
  · rw [readOperation_globalAddr]; exact ⟨_, busWord_global s.blk g, exec_rdGlobal g s⟩

theorem step_read {s : State} {a : Addr} {rest : List Word} (hwf : s.cfg.wf = true)
    (hs : s.stimulus = BitVec.ofNat 32 (0x50000000 + a.toNat) :: rest) :
    step s = runOperation (readOperation a) { s with stimulus := rest } :=
  step_of_decode hwf (by rw [hs, ← readWord_eq_ofNat, decode_read])

/-! ### The statements of the family -/

/-- Settles O13, by induction on the list: the head's words decode to the head, which reads no word behind its own. -/
theorem streamRunsInOrder : Obligations.StreamRunsInOrder := run_encoded_stream

/-- Settles O44: each WRITE either stores what is then stored already, or is refused again on the same latches. -/
theorem writesAreIdempotent : Obligations.WritesAreIdempotent := by
  intro i s t hi h
  rcases isWrite_shape hi with ⟨m, d, rfl⟩ | ⟨d, rfl⟩ | ⟨d, rfl⟩ | ⟨m, d, rfl⟩ | ⟨d, rfl⟩
  · rw [exec_wrPos] at h ⊢; exact writePos_idempotent h
  · exact writeCmd_idempotent (m := .x) h
  · exact writeCmd_idempotent (m := .yl) h
  · rw [exec_wrMode] at h ⊢; exact writeMode_idempotent h
  · exact writeCtrl_idempotent h

/-- Settles O48: an address in a hole has neither a row nor a word, and any other has both, of one register. -/
theorem readsAnswerByAddress : Obligations.ReadsAnswerByAddress := by
  intro s a rest hwf hs
  have hstep := step_read hwf hs
  refine ⟨fun hhole => ⟨busWord_hole hhole, some 0, ?_⟩, fun hmapped => ?_⟩
  · rw [hstep, readOperation_hole hhole]; rfl
  · obtain ⟨w, hw, hrun⟩ := readOperation_answers hmapped { s with stimulus := rest }
    have haligned : a.toNat % 4 = 0 := not_not.1 fun h => hmapped (.inl h)
    exact ⟨w, hw, hstep.trans hrun, busByte_of_busWord haligned hw⟩

/-- Settles O10: a row's word is its format's base plus its address, which is the channel's base plus the register's offset. -/
theorem accessWordsFollowTheAddressMap : Obligations.AccessWordsFollowTheAddressMap := by
  intro m
  refine ⟨fun r => ?_, fun g => ?_, fun d => ?_, fun d => ?_, fun d => ⟨rfl, rfl, rfl⟩⟩
  · rw [encode_rd, readWord_eq_add, regAddr_setWidth, BitVec.add_assoc]
  · rw [encode_rdGlobal, readWord_eq_add]
  · rw [encode_wrPos, writeWord_eq_add, regAddr_setWidth]
    cases m <;> rfl
  · rw [encode_wrMode, writeWord_eq_add, regAddr_setWidth]
    cases m <;> rfl

/-- Settles O11: a row of the map is one of the operations a step runs. -/
theorem stepRunsTheDecodedInstruction : Obligations.StepRunsTheDecodedInstruction :=
  fun _ _ _ hwf hdecode => step_of_decode hwf hdecode

end Sys2Proof.Machine

/-! ## Encoding (spec/30_encoding.md)

The kind of each format's word, the words a step refuses, the response of each kind, and what a TICK word's bits become: the
lemmas first, the statements of the family at the end. -/

namespace Sys2Proof.Machine

/-! ### The kind of a word -/

theorem edgeWord_kind (m : BitVec 2) (b : Bool) (cap : Capture) : (edgeWord m b cap).toNat / 2 ^ 28 = 1 := by
  have hc := cap.isLt
  have hm := m.isLt
  have hb := Bool.toNat_lt b
  rw [edgeWord_toNat]
  omega

theorem tickWord_kind (sw : BitVec 6) : (tickWord sw).toNat / 2 ^ 28 = 3 := by
  have h := sw.isLt
  rw [tickWord_toNat]
  omega

theorem writeWord_kind (a : Addr) : (writeWord a).toNat / 2 ^ 28 = 4 := by
  have h := a.isLt
  rw [writeWord_toNat]
  omega

theorem readWord_kind (a : Addr) : (readWord a).toNat / 2 ^ 28 = 5 := by
  have h := a.isLt
  rw [readWord_toNat]
  omega

theorem encode_wrCmdX (d : Word) : encode (.wrCmdX d) = [writeWord (regAddr .x .cmd), d] := rfl

theorem encode_wrCmdYl (d : Word) : encode (.wrCmdYl d) = [writeWord (regAddr .yl .cmd), d] := rfl

theorem encode_wrCtrl (d : Word) : encode (.wrCtrl d) = [writeWord (globalAddr .ctrl), d] := rfl

/-! ### The words the decoder reads -/

/-- The words the decoder takes off a stream are those of the operation it reads, and an access it finds no row for has none
(R69, R77, R80). -/
theorem decode_spells {ws rest : List Word} {op : Operation} (h : decode ws = .operation op rest) :
    ws = encodeOperation op ++ rest ∧ op.wf = true := by
  cases ws with
  | nil => cases h
  | cons w ws =>
    rcases decodeWord_spec w with ⟨m, b, cap, -, rfl⟩ | ⟨-, rfl⟩ | ⟨sw, -, rfl⟩ | ⟨a, hw, rfl⟩ | ⟨a, -, rfl⟩ | ⟨why, hw, -⟩
    · rw [decode_edge] at h
      cases h
      exact ⟨by rw [encodeOperation, encode_edge]; rfl, rfl⟩
    · cases h
      exact ⟨rfl, rfl⟩
    · rw [decode_tick] at h
      cases h
      exact ⟨rfl, rfl⟩
    · cases ws with
      | nil => rw [decode, hw] at h; cases h
      | cons d ws =>
        rw [decode_write] at h
        cases h
        obtain ⟨hwords, hwf⟩ := writeOperation_spec a d
        exact ⟨by rw [hwords]; rfl, hwf⟩
    · rw [decode_read] at h
      cases h
      obtain ⟨hwords, hwf⟩ := readOperation_spec a
      exact ⟨by rw [hwords]; rfl, hwf⟩
    · rw [decode, hw] at h
      cases h

/-! ### The words the decoder refuses -/

/-- R77's decoding of a word ends in a refusal. -/
def Refuses (r : Stimulus) : Prop := ∃ why, r = .refuse why

theorem refuses_refuse (why : DecodeRefusal) : Refuses (.refuse why) := ⟨why, rfl⟩

/-- A format whose must-be-zero field is checked last refuses exactly a nonzero one (R79). -/
theorem refuses_format_iff {zero : Prop} [Decidable zero] {read : Stimulus} {why : DecodeRefusal} (hread : ¬ Refuses read) :
    Refuses (if zero then read else .refuse why) ↔ ¬ zero := by
  split
  next hz => exact ⟨fun h => absurd h hread, fun h => absurd hz h⟩
  next hz => exact ⟨fun _ => hz, fun _ => refuses_refuse why⟩

/-- Three of the four channel codes name a channel (R71). -/
theorem chanOfCode_eq_none_iff (v : BitVec 2) : chanOfCode v = none ↔ v.toNat = 3 := by
  revert v
  decide

/-- The EDGE words that R79 refuses: a nonzero must-be-zero field, or channel 3. -/
theorem refuses_decodeEdge_iff (w : Word) : Refuses (decodeEdge w) ↔
    w.toNat / 2 ^ 4 % 2 ^ 8 ≠ 0 ∨ w.toNat / 2 ^ 2 % 2 ≠ 0 ∨ w.toNat % 4 = 3 := by
  have hcode := chanOfCode_eq_none_iff (field w 0 2)
  rw [toNat_field, pow_zero, Nat.div_one] at hcode
  simp only [decodeEdge, field_eq_iff]
  split
  next hz =>
    obtain ⟨hpad, hpad'⟩ := hz
    cases hm : chanOfCode (field w 0 2) with
    | none => exact ⟨fun _ => .inr (.inr (hcode.1 hm)), fun _ => refuses_refuse _⟩
    | some m =>
      have hne : w.toNat % 4 ≠ 3 := fun h3 => by cases hm.symm.trans (hcode.2 h3)
      exact ⟨nofun, fun h => (h.elim (· hpad) fun h => h.elim (· hpad') (absurd · hne)).elim⟩
  next hz => exact ⟨fun _ => (not_and_or.1 hz).imp_right .inl, fun _ => refuses_refuse _⟩

/-- A word is refused exactly when its number is one of R79's. -/
theorem refuses_decodeWord_iff (w : Word) : Refuses (decodeWord w) ↔ SpellsNothing w := by
  have hw := w.isLt
  simp only [decodeWord, SpellsNothing, field_eq_iff, BitVec.ofNat_eq_ofNat, BitVec.toNat_ofNat, Nat.reducePow,
    Nat.reduceMod, Nat.div_one, pow_zero]
  split
  next hedge => rw [refuses_decodeEdge_iff]; omega
  split
  next hovf => exact Iff.trans (refuses_format_iff nofun) (by omega)
  split
  next htick => exact Iff.trans (refuses_format_iff nofun) (by omega)
  split
  next hwrite => exact Iff.trans (refuses_format_iff nofun) (by omega)
  split
  next hread => exact Iff.trans (refuses_format_iff nofun) (by omega)
  next hnone =>
    have hreserved : w.toNat / 268435456 = 0 ∨ 6 ≤ w.toNat / 268435456 := by omega
    exact ⟨fun _ => or_assoc.1 (.inl hreserved), fun _ => refuses_refuse _⟩

/-- A stream's head decides whether it is refused, but for a WRITE that no data word follows (R79; log 5). -/
theorem decode_refused_iff (w : Word) (rest : List Word) :
    (∃ why, why ≠ .missingData ∧ decode (w :: rest) = .refused why) ↔ Refuses (decodeWord w) := by
  rcases decodeWord_spec w with ⟨m, b, cap, h, -⟩ | ⟨h, -⟩ | ⟨sw, h, -⟩ | ⟨a, h, -⟩ | ⟨a, h, -⟩ | ⟨why, h, hne⟩
  · rw [decode, h]; exact ⟨nofun, nofun⟩
  · rw [decode, h]; exact ⟨nofun, nofun⟩
  · rw [decode, h]; exact ⟨nofun, nofun⟩
  · rw [decode, h]
    cases rest with
    | nil => exact ⟨fun ⟨_, hne, hd⟩ => absurd (Decoded.refused.inj hd).symm hne, nofun⟩
    | cons d rest => exact ⟨nofun, nofun⟩
  · rw [decode, h]; exact ⟨nofun, nofun⟩
  · exact ⟨fun _ => ⟨why, h⟩, fun _ => ⟨why, hne, by rw [decode, h]⟩⟩

theorem refusalOf_eq_missingData_iff (why : DecodeRefusal) : refusalOf why = .missingData ↔ why = .missingData := by
  cases why <;> decide

/-- Under a valid configuration a step refuses exactly what the decoder refuses, an operation never (R79, R168). -/
theorem step_refused_iff {s : State} {r : Refusal} (hwf : s.cfg.wf = true) :
    step s = .refused r ↔ ∃ why, decode s.stimulus = .refused why ∧ refusalOf why = r := by
  rcases step_cases s with ⟨hbad, -⟩ | ⟨-, ⟨hd, hs⟩ | ⟨why, hd, hs⟩ | ⟨op, rest, hd, hs⟩⟩
  · cases hwf.symm.trans hbad
  · rw [hd, hs]; exact ⟨nofun, nofun⟩
  · rw [hd, hs]
    exact ⟨fun h => ⟨why, rfl, Host.Outcome.refused.inj h⟩, fun ⟨_, h, hr⟩ => by cases h; rw [hr]⟩
  · obtain ⟨b, resp, hfinish⟩ := runOperation_finish op { s with stimulus := rest }
    rw [hd, hs, hfinish]; exact ⟨nofun, nofun⟩

/-! ### How each kind of instruction completes -/

/-- The outcome leaves the stream and the configuration of `s`, with the response of an operation of this kind (R69, R169). -/
def CompletesAs (kind : Nat) (s : State) (o : Result) : Prop :=
  ∃ t, o = .next t ∧ t.stimulus = s.stimulus ∧ t.cfg = s.cfg ∧ (kind ≤ 3 → t.resp = none) ∧
    (kind = 4 → ∃ code, t.resp = some ⟨code, none⟩) ∧ (kind = 5 → ∃ w, t.resp = some ⟨.okay, some w⟩)

theorem completesAs_quiet {kind : Nat} (hkind : kind ≤ 3) (s : State) (b : Block) : CompletesAs kind s (s.finishQuiet b) :=
  ⟨_, rfl, rfl, rfl, fun _ => rfl, fun h => by omega, fun h => by omega⟩

theorem completesAs_write (s : State) (b : Block) (code : RespCode) : CompletesAs 4 s (s.finish b (some ⟨code, none⟩)) :=
  ⟨_, rfl, rfl, rfl, fun h => by omega, fun _ => ⟨code, rfl⟩, fun h => by omega⟩

theorem completesAs_read (s : State) (w : Word) : CompletesAs 5 s (s.finishRead w) :=
  ⟨_, rfl, rfl, rfl, fun h => by omega, fun h => by omega, fun _ => ⟨w, rfl⟩⟩

theorem writeCmd_completes (m : Chan) (d : Word) (s : State) : CompletesAs 4 s (writeCmd m d s) := completesAs_write s _ _

theorem writeMode_completes (m : Chan) (d : Word) (s : State) : CompletesAs 4 s (writeMode m d s) := by
  rcases writeMode_cases m d s with ⟨v, -, -, -, h⟩ | ⟨-, h⟩ <;> rw [h] <;> exact completesAs_write s _ _

theorem writeCtrl_completes (d : Word) (s : State) : CompletesAs 4 s (writeCtrl d s) := by
  rcases writeCtrl_cases d s with ⟨-, h⟩ | ⟨-, -, h⟩ | ⟨-, -, h⟩ <;> rw [h] <;> exact completesAs_write s _ _

/-- Every row of the map completes in the way of its word's kind (R78, R168). -/
theorem exec_completesAs (i : Instr) (s : State) : CompletesAs (((encode i).headD 0).toNat / 2 ^ 28) s (exec i s) := by
  rcases Instr.shape i with ⟨m, l, cap, rfl⟩ | rfl | ⟨sw, rfl⟩ | ⟨m, d, rfl⟩ | ⟨d, rfl⟩ | ⟨d, rfl⟩ | ⟨m, d, rfl⟩ | ⟨d, rfl⟩ |
    ⟨m, r, rfl⟩ | ⟨g, rfl⟩
  · rw [encode_edge, List.headD_cons, edgeWord_kind, exec_edge]; exact completesAs_quiet (by decide) s _
  · exact completesAs_quiet (by decide) s _
  · rw [encode, List.headD_cons, tickWord_kind]; exact completesAs_quiet (by decide) s _
  · rw [encode_wrPos, List.headD_cons, writeWord_kind, exec_wrPos]; exact completesAs_write s _ _
  · rw [encode_wrCmdX, List.headD_cons, writeWord_kind]; exact writeCmd_completes .x d s
  · rw [encode_wrCmdYl, List.headD_cons, writeWord_kind]; exact writeCmd_completes .yl d s
  · rw [encode_wrMode, List.headD_cons, writeWord_kind, exec_wrMode]; exact writeMode_completes m d s
  · rw [encode_wrCtrl, List.headD_cons, writeWord_kind]; exact writeCtrl_completes d s
  · rw [encode_rd, List.headD_cons, readWord_kind, exec_rd]; exact completesAs_read s _
  · rw [encode_rdGlobal, List.headD_cons, readWord_kind, exec_rdGlobal]; exact completesAs_read s _

/-! ### What a TICK samples and counts -/

/-- A tick ends with the switch levels its word carries: no stage after the sampling writes them (R73, R84). -/
theorem tick_switches (k : Config) (sw : BitVec 6) (b : Block) (m : Chan) :
    ((tick k sw b).chan m).homeSw = homeLevel sw m ∧ ((tick k sw b).chan m).limitSw = limitLevel sw m := by
  obtain ⟨-, -, -, -, -, -, -, hhome, hlimit⟩ := controlInput_keeps k sw b m
  rcases tick_control_or_brake k sw b m with ⟨-, h⟩ | ⟨-, -, h⟩ <;> rw [h]
  · rw [control_homeSw, control_limitSw]; exact ⟨hhome, hlimit⟩
  · exact ⟨hhome, hlimit⟩

/-- Below `SUBRATE_N`, which is at most 1000, the divider counts without a wrap at its 10 bits (R85; log 8). -/
theorem tick_tickPhase {k : Config} (hwf : k.wf = true) (sw : BitVec 6) {b : Block} (h : b.PhaseOk k) :
    (tick k sw b).tickPhase.toNat = if b.tickPhase.toNat + 1 = k.subrateN then 0 else b.tickPhase.toNat + 1 := by
  obtain ⟨-, -, hmax, -⟩ := (config_wf_iff k).1 hwf
  obtain ⟨-, -, -, hphase, -⟩ := tick_globals k sw b
  unfold Block.PhaseOk at h
  rw [hphase, subrateTick]
  simp only [beq_iff_eq]
  split
  · rfl
  · rw [BitVec.toNat_ofNat]
    exact Nat.mod_eq_of_lt (by omega)

/-! ### The statements of the family -/

/-- Settles O6, by the shape of the instruction: each row's first word is a format's word at the row's channel or address. -/
theorem decodeReadsBackEncode : Obligations.DecodeReadsBackEncode := decode_encode_append

/-- Settles O7, by the format of the stream's first word: its fields, put together again, are the word. -/
theorem decodedOperationSpellsItsWords : Obligations.DecodedOperationSpellsItsWords := fun _ _ _ => decode_spells

/-- Settles O8: a step refuses what the decoder refuses, the decoder a word, and that word by its number. -/
theorem reservedWordsAreRefused : Obligations.ReservedWordsAreRefused := by
  intro s w rest hwf hs
  rw [← refuses_decodeWord_iff, ← decode_refused_iff w rest, ← hs]
  constructor
  · rintro ⟨r, hne, hr⟩
    obtain ⟨why, hd, rfl⟩ := (step_refused_iff hwf).1 hr
    exact ⟨why, mt (refusalOf_eq_missingData_iff why).2 hne, hd⟩
  · rintro ⟨why, hne, hd⟩
    exact ⟨refusalOf why, mt (refusalOf_eq_missingData_iff why).1 hne, (step_refused_iff hwf).2 ⟨why, hd, rfl⟩⟩

/-- Settles O12: the kind of a row's first word tells how the row ends. -/
theorem everyInstructionCompletes : Obligations.EveryInstructionCompletes := exec_completesAs

/-- Settles O19: the levels are those of the three channels, and the divider is the block's. -/
theorem tickSamplesSwitchesAndAdvancesPhase : Obligations.TickSamplesSwitchesAndAdvancesPhase := by
  intro s sw hwf hphase
  have hsw := tick_switches s.cfg sw s.blk
  exact ⟨_, exec_tick sw s, (hsw .x).1, (hsw .x).2, (hsw .yl).1, (hsw .yl).2, (hsw .yr).1, (hsw .yr).2,
    tick_tickPhase hwf sw hphase⟩

/-- Settles O9: the rows' streams are their encodings, the unmapped READ is format R's, and the last two are refused by R79. -/
theorem writtenOutWordsDecode : Obligations.WrittenOutWordsDecode :=
  ⟨decode_encode_append (.edgeX true 0) [], decode_encode_append (.edgeX true 0x1234) [],
    decode_encode_append (.edgeYr true 0xFFFF) [], decode_encode_append (.edgeYl false 0) [], decode_encode_append .ovf [],
    decode_encode_append (.tick 0b000010) [], decode_encode_append (.wrCtrl 1) [], decode_encode_append (.wrPosYl 1000) [],
    decode_encode_append .rdYstat [], decode_encode_append .rdPeriodYr [], decode_read 0x038 [], rfl, rfl⟩

end Sys2Proof.Machine

/-! ## The tick sequencer (spec/40_tick_sequencer.md)

What a TICK carries over from its detector and estimator stages, what its controllers start from, and the strike condition in
the words of R127: the lemmas first, the statements of the family at the end. -/

namespace Sys2Proof.Machine

/-! ### The vocabulary of the statements, in the model's terms -/

theorem onSubrate_iff (s : State) : OnSubrate s ↔ subrateTick s.cfg s.blk = true := beq_iff_eq.symm

theorem not_onSubrate_iff (s : State) : ¬ OnSubrate s ↔ subrateTick s.cfg s.blk = false := by
  rw [onSubrate_iff, Bool.not_eq_true]

theorem sampled_eq_sampleChannel (sw : BitVec 6) (m : Chan) (c : Channel) : sampled sw m c = sampleChannel sw m c := by
  cases m <;> rfl

theorem errorCap_eq_controlCap (b : Block) (m : Chan) : errorCap b m = controlCap b m := by cases m <;> rfl

/-! ### What a TICK carries over, and what it never writes -/

/-- The fields no stage after the detector and the estimator writes: they end as the controllers found them (R83, R103, R137). -/
theorem tick_carries (k : Config) (sw : BitVec 6) (b : Block) (m : Chan) :
    let d := (tick k sw b).chan m
    let r := controlInput k sw b m
    d.qdir = r.qdir ∧ d.error = r.error ∧ d.speed = r.speed ∧ d.prev = r.prev ∧ d.strike = r.strike ∧
      d.lastDir = r.lastDir := by
  dsimp only
  rcases tick_control_or_brake k sw b m with ⟨-, h⟩ | ⟨-, -, h⟩ <;> rw [h]
  · obtain ⟨hqdir, -, -, -, herror, hspeed, hprev, hstrike, hlast, -⟩ :=
      control_keeps (k.chan m) (controlCap b m) (controlInput k sw b m)
    exact ⟨hqdir, herror, hspeed, hprev, hstrike, hlast⟩
  · exact ⟨rfl, rfl, rfl, rfl, rfl, rfl⟩

/-- No tick writes the decoder's direction (R90). -/
theorem tick_qdir (k : Config) (sw : BitVec 6) (b : Block) (m : Chan) :
    ((tick k sw b).chan m).qdir = (b.chan m).qdir := by
  obtain ⟨hcarried, -⟩ := tick_carries k sw b m
  obtain ⟨-, -, -, hin, -⟩ := controlInput_keeps k sw b m
  exact hcarried.trans hin

/-- Of the commands of X and of the master only an enabled controller's clamp writes one (R104, R105). -/
theorem tick_cmd_of_not_enabled {k : Config} {sw : BitVec 6} {b : Block} {m : Chan} (hm : m ≠ .yr)
    (hmode : ((tick k sw b).chan m).mode ≠ .positionControl) : ((tick k sw b).chan m).cmd = (b.chan m).cmd := by
  have hin : (controlInput k sw b m).cmd = (b.chan m).cmd := if_neg hm
  rcases tick_control_or_brake k sw b m with ⟨-, h⟩ | ⟨-, -, h⟩ <;> rw [h] at hmode ⊢
  · rw [control_mode] at hmode
    rw [control_gate hmode, gateExit_cmd, hin]
  · exact hin

/-! ### What the controllers of a TICK start from -/

/-- The fields of channel m that the detector and the estimator write, taken from `d`; the rest from `c` (R86). -/
def withStages (d c : Channel) : Channel :=
  { c with strike := d.strike, lastDir := d.lastDir, speed := d.speed, prev := d.prev }

/-- The channel with another command (R135). -/
def withCommand (v : Word) (c : Channel) : Channel := { c with cmd := v }

theorem controlInput_eq_withCommand (k : Config) (sw : BitVec 6) (b : Block) (m : Chan) :
    controlInput k sw b m = withCommand (tickInput sw m b).cmd (readyChannel k (subrateTick k b) sw m (b.chan m)) := rfl

theorem tickInput_eq_withCommand (sw : BitVec 6) (m : Chan) (b : Block) :
    tickInput sw m b = withCommand (tickInput sw m b).cmd (sampleChannel sw m (b.chan m)) := by
  rw [← sampled_eq_sampleChannel]
  rfl

/-- On a plain tick a controller starts from the sampled channel, the slave's with the master's command (R84, R135). -/
theorem controlInput_plain {k : Config} (sw : BitVec 6) {b : Block} (m : Chan) (hs : subrateTick k b = false) :
    controlInput k sw b m = tickInput sw m b := by
  obtain ⟨hplain, -, -⟩ := readyChannel_record k (subrateTick k b) sw m (b.chan m)
  rw [controlInput_eq_withCommand, hplain hs, ← tickInput_eq_withCommand]

/-- On a sub-rate tick it starts from the same with what the stages wrote, and with the entry of the fault where the tick latches
the channel (R86, R129). -/
theorem controlInput_subrate {k : Config} (sw : BitVec 6) {b : Block} (m : Chan) (hs : subrateTick k b = true) :
    let checked := withStages ((tick k sw b).chan m) (tickInput sw m b)
    (¬ LatchesInTick k b m → controlInput k sw b m = checked) ∧
      (LatchesInTick k b m → controlInput k sw b m = latchChannel (k.chan m) checked) := by
  obtain ⟨-, -, hspeed, hprev, hstrike, hlast⟩ := tick_carries k sw b m
  obtain ⟨-, hquiet, hlatch⟩ := readyChannel_record k (subrateTick k b) sw m (b.chan m)
  dsimp only
  rw [withStages, hstrike, hlast, hspeed, hprev, tickInput_eq_withCommand]
  refine ⟨fun hl => ?_, fun hl => ?_⟩
  · have hnow : latchesNow (k.chan m) (b.chan m) = false := by simpa [hs] using hl
    exact congrArg (withCommand (tickInput sw m b).cmd) (hquiet hs hnow)
  · exact congrArg (withCommand (tickInput sw m b).cmd) (hlatch hs hl.2)

/-- A channel whose controller a tick runs ends at its result (R83, R138, R139). -/
theorem tick_runs_control {k : Config} (sw : BitVec 6) {b : Block} {m : Chan}
    (h : m = .x ∨ (divergence b).natAbs < k.mismatchLimit) :
    (tick k sw b).chan m = control (k.chan m) (controlCap b m) (controlInput k sw b m) := by
  rcases tick_control_or_brake k sw b m with ⟨-, hrun⟩ | ⟨hm, htrip, -⟩
  · exact hrun
  · exact h.elim (absurd · hm) (by omega)

/-- A plain tick that does not trip leaves the Y fault (R129, R137). -/
theorem tick_yerr_of_plain {k : Config} (sw : BitVec 6) {b : Block} (hs : subrateTick k b = false)
    (hd : (divergence b).natAbs < k.mismatchLimit) : (tick k sw b).yerr = b.yerr := by
  have hquiet : ∀ m, m ≠ .x → ¬ LatchesInTick k b m := fun _ _ hl => absurd (hs.symm.trans hl.1) (by decide)
  rw [tick_yerr, if_neg fun h => absurd h.2 (by omega), yerrBefore_of_quiet hquiet]

/-! ### The strike condition -/

theorem stalls_iff (k : ChannelConfig) (c : Channel) : Stalls k c ↔ c.direction = c.lastDir ∧ stalled k c = true := by
  simp only [Stalls, stalled, Bool.and_eq_true, decide_eq_true_eq]
  tauto

theorem evaluate_of_stalls {k : ChannelConfig} {c : Channel} (h : Stalls k c) : evaluate k c = addStrike c := by
  obtain ⟨hdir, hstall⟩ := (stalls_iff k c).1 h
  rw [evaluate, if_neg (not_not.2 hdir), if_pos hstall]

/-- A direction change and an evaluation that is not stalled each zero the count (R126, R128). -/
theorem evaluate_strike_of_not_stalls {k : ChannelConfig} {c : Channel} (h : ¬ Stalls k c) : (evaluate k c).strike = 0 := by
  unfold evaluate
  split
  · rfl
  next hdir =>
    split
    next hstall => exact absurd ((stalls_iff k c).2 ⟨not_not.1 hdir, hstall⟩) h
    · rfl

theorem addStrike_toNat (c : Channel) : (addStrike c).strike.toNat = min (c.strike.toNat + 1) 65535 := by
  rw [addStrike_strike, BitVec.toNat_ofNat]
  omega

/-- An evaluation latches exactly on the strike that brings the count to the limit (R127, R129). -/
theorem latches_iff (k : ChannelConfig) (c : Channel) :
    latches k c = true ↔ c.error = .none ∧ Stalls k c ∧ k.strikeLimit ≤ (addStrike c).strike.toNat := by
  simp only [latches, stalls_iff, Bool.and_eq_true, decide_eq_true_eq, and_assoc]

/-! ### The detector through a TICK -/

/-- A plain tick, and any tick of a latched channel, leaves what the detector writes (R86, R130). -/
theorem tick_unevaluated {k : Config} (sw : BitVec 6) {b : Block} {m : Chan}
    (h : subrateTick k b = false ∨ (b.chan m).error = .overload) :
    ((tick k sw b).chan m).strike = (b.chan m).strike ∧ ((tick k sw b).chan m).lastDir = (b.chan m).lastDir ∧
      ((tick k sw b).chan m).error = (b.chan m).error := by
  obtain ⟨-, herror, -, -, hstrike, hlast⟩ := tick_carries k sw b m
  rw [herror, hstrike, hlast]
  exact (readyChannel_strike k _ sw m (b.chan m)).1 h

/-- A sub-rate tick ends with what the evaluation of an unlatched channel wrote (R125, R129). -/
theorem tick_evaluated {k : Config} (sw : BitVec 6) {b : Block} {m : Chan} (hs : subrateTick k b = true)
    (hnone : (b.chan m).error = .none) :
    ((tick k sw b).chan m).strike = (evaluate (k.chan m) (b.chan m)).strike ∧
      ((tick k sw b).chan m).lastDir = (b.chan m).direction ∧
      ((tick k sw b).chan m).error = if latches (k.chan m) (b.chan m) then .overload else .none := by
  obtain ⟨-, herror, -, -, hstrike, hlast⟩ := tick_carries k sw b m
  rw [herror, hstrike, hlast]
  exact (readyChannel_strike k _ sw m (b.chan m)).2 hs hnone

/-! ### The statements of the family -/

/-- Settles O20: the controller and the trip keep the decoder's fields, and the gate and the Brake outputs keep the command. -/
theorem tickFrame : Obligations.TickFrame := by
  intro s t sw ht
  rw [exec_tick] at ht; cases ht
  obtain ⟨-, hrefused, hovf, -⟩ := tick_globals s.cfg sw s.blk
  refine ⟨rfl, rfl, hovf, hrefused, fun m => ?_⟩
  obtain ⟨hedge1, hedge2⟩ := tick_edges s.cfg sw s.blk m
  exact ⟨tick_qdir _ _ _ m, hedge1, hedge2, tick_cmd_of_not_enabled⟩

/-- Settles O21: each controller runs on the record that the sampling, the checks and a latch of the tick leave. -/
theorem tickRunsTheControllers : Obligations.TickRunsTheControllers := by
  intro s sw
  refine ⟨_, exec_tick sw s, fun hs hd => tick_yerr_of_plain sw ((not_onSubrate_iff s).1 hs) hd, fun m hm => ?_⟩
  have hrun := tick_runs_control sw hm
  have hchanged := tick_error_changed s.cfg sw s.blk m
  rw [← errorCap_eq_controlCap] at hrun
  refine ⟨fun hs => ?_, fun hs hsame => ?_, fun hs hlatched => ?_⟩
  · rwa [controlInput_plain sw m ((not_onSubrate_iff s).1 hs)] at hrun
  · obtain ⟨hchecked, -⟩ := controlInput_subrate sw m ((onSubrate_iff s).1 hs)
    rwa [hchecked fun hl => hchanged.2 hl hsame] at hrun
  · obtain ⟨-, hlatch⟩ := controlInput_subrate sw m ((onSubrate_iff s).1 hs)
    rwa [hlatch (hchanged.1 hlatched)] at hrun

/-- Settles O23: the evaluation of an unlatched channel, in the case of a strike and in the other. -/
theorem subrateTickCountsStrikes : Obligations.SubrateTickCountsStrikes := by
  intro s t sw ht m
  rw [exec_tick] at ht; cases ht
  refine ⟨fun h => tick_unevaluated sw (h.imp_left (not_onSubrate_iff s).1), fun hs hnone => ?_⟩
  obtain ⟨hstrike, hlast, herror⟩ := tick_evaluated sw ((onSubrate_iff s).1 hs) hnone
  refine ⟨hlast, fun h => ?_, fun h => ?_⟩
  · rw [evaluate_of_stalls h] at hstrike
    rw [herror, hstrike]
    refine ⟨addStrike_toNat _, ?_⟩
    simp [latches_iff, hnone, h]
  · rw [hstrike, herror, evaluate_strike_of_not_stalls h, if_neg fun hl => h ((latches_iff _ _).1 hl).2.1]
    exact ⟨rfl, rfl⟩

end Sys2Proof.Machine

/-! ## The quadrature decoder (spec/41_quadrature_decoder.md)

What an EDGE counts, what a run of EDGEs of one direction adds up to, and the time a PERIOD reads: the lemmas first, the
statements of the family at the end. -/

namespace Sys2Proof.Machine

/-! ### Counting at the end of the i32 range -/

/-- `n` counts up or down from `p`, held at the end of the i32 range they run towards (R91). -/
def countedFrom (up : Bool) (p : Int) (n : Nat) : Int :=
  if up then min (p + n) 2147483647 else max (p - n) (-2147483648)

theorem countedFrom_up (p : Int) (n : Nat) : countedFrom true p n = min (p + n) 2147483647 := rfl

theorem countedFrom_down (p : Int) (n : Nat) : countedFrom false p n = max (p - n) (-2147483648) := rfl

/-- From a value of the range the counts stay in it. -/
theorem countedFrom_range (up : Bool) {p : Int} (h : InI32 p) (n : Nat) : InI32 (countedFrom up p n) := by
  unfold InI32 at h ⊢
  cases up
  · rw [countedFrom_down]; omega
  · rw [countedFrom_up]; omega

theorem countedFrom_zero (up : Bool) {p : Int} (h : InI32 p) : countedFrom up p 0 = p := by
  unfold InI32 at h
  cases up
  · rw [countedFrom_down]; omega
  · rw [countedFrom_up]; omega

/-- Counts of one direction add up although each of them saturates: at the end of the range all later ones stay there (R95). -/
theorem countedFrom_one (up : Bool) (p : Int) (n : Nat) : countedFrom up (countedFrom up p 1) n = countedFrom up p (1 + n) := by
  cases up
  · simp only [countedFrom_down]; omega
  · simp only [countedFrom_up]; omega

/-! ### What an EDGE counts -/

/-- An EDGE counts once, up when it is Forward (R89, R91). -/
theorem edge_pos (k : Config) (m : Chan) (l : Bool) (cap : Capture) (b : Block) :
    s32 ((edge k m l cap b).chan m).pos = countedFrom (edgeForward (k.chan m) l) (s32 (b.chan m).pos) 1 := by
  have hpos : ((edge k m l cap b).chan m).pos = u32 (countedFrom (edgeForward (k.chan m) l) (s32 (b.chan m).pos) 1) := by
    rw [edge_chan]
    simp only [countedFrom, edgeForward, beq_iff_eq, Nat.cast_one]
  obtain ⟨hlo, hhi⟩ := countedFrom_range (edgeForward (k.chan m) l) (s32_range (b.chan m).pos) 1
  rw [hpos, s32_u32 hlo hhi]

theorem edge_qdir (k : Config) (m : Chan) (l : Bool) (cap : Capture) (b : Block) :
    ((edge k m l cap b).chan m).qdir = if edgeForward (k.chan m) l then .forward else .reverse := by
  rw [edge_chan]
  simp only [edgeForward, beq_iff_eq]

theorem edgeForward_polarity (k : ChannelConfig) : edgeForward k k.qdBHighFwd = true := beq_self_eq_true _

theorem edgeForward_of_ne {k : ChannelConfig} {l : Bool} (h : l ≠ k.qdBHighFwd) : edgeForward k l = false := beq_false_of_ne h

theorem edge_stamps (k : Config) (m : Chan) (l : Bool) (cap : Capture) (b : Block) :
    ((edge k m l cap b).chan m).edge1 = (if (k.chan m).tsEnable then (b.chan m).edge2 else (b.chan m).edge1) ∧
      ((edge k m l cap b).chan m).edge2 = if (k.chan m).tsEnable then ⟨cap, b.ovfCnt⟩ else (b.chan m).edge2 := by
  rw [edge_chan]
  exact ⟨rfl, rfl⟩

/-! ### Which operations count -/

theorem isEdgeOn_iff (m : Chan) (i : Instr) : isEdgeOn m i = true ↔ ∃ l cap, i = Instr.edge m l cap := by
  constructor
  · intro h
    unfold isEdgeOn at h
    split at h
    next l cap => exact ⟨l, cap, rfl⟩
    next l cap => exact ⟨l, cap, rfl⟩
    next l cap => exact ⟨l, cap, rfl⟩
    · cases h
  · rintro ⟨l, cap, rfl⟩
    cases m <;> rfl

theorem edgeCount_cons_edge (m : Chan) (l : Bool) (cap : Capture) (is : List Instr) :
    edgeCount m (Instr.edge m l cap :: is) = 1 + edgeCount m is := by
  rw [edgeCount, List.filter_cons_of_pos ((isEdgeOn_iff m _).2 ⟨l, cap, rfl⟩), List.length_cons, Nat.add_comm, edgeCount]

theorem edgeCount_cons_of_writesNoPosition {m : Chan} {i : Instr} (h : WritesNoPosition m i) (is : List Instr) :
    edgeCount m (i :: is) = edgeCount m is := by
  obtain ⟨hedge, -, -⟩ := h
  rw [edgeCount, List.filter_cons_of_neg fun hi => ?_, edgeCount]
  obtain ⟨l, cap, hi⟩ := (isEdgeOn_iff m i).1 hi
  exact hedge l cap hi

/-- With both switches of the channel off in its word, a tick overrides no position (R106). -/
theorem tick_pos_of_switchesOff {k : Config} {sw : BitVec 6} {b : Block} {m : Chan} (h : switchesOff sw m) :
    ((tick k sw b).chan m).pos = (b.chan m).pos := by
  by_contra hne
  obtain ⟨hhome, hlimit⟩ : homeLevel sw m = false ∧ limitLevel sw m = false := by cases m <;> exact h
  obtain ⟨hh, hl⟩ := tick_switches k sw b m
  obtain ⟨-, hsw⟩ := tick_pos_changed hne
  rw [hh, hl, hhome, hlimit] at hsw
  exact hsw.elim nofun nofun

/-- R26 names every writer of a position, so an operation that is none of them keeps it. -/
theorem pos_of_writesNoPosition {m : Chan} {i : Instr} {s t : State} (hi : WritesNoPosition m i) (ht : exec i s = .next t) :
    (t.blk.chan m).pos = (s.blk.chan m).pos := by
  obtain ⟨hedge, hwrite, htick⟩ := hi
  by_contra hne
  rcases positionHasThreeWriters i s t m ht hne with ⟨l, cap, h⟩ | ⟨d, h⟩ | ⟨sw, rfl, -⟩
  · exact hedge l cap h
  · exact hwrite d h
  · rw [exec_tick] at ht; cases ht
    exact hne (tick_pos_of_switchesOff (htick sw rfl))

/-! ### A run of EDGEs -/

theorem exec_completes (i : Instr) (s : State) : ∃ t, exec i s = .next t ∧ t.cfg = s.cfg := by
  obtain ⟨b, r, h⟩ := exec_finish i s
  exact ⟨_, h, rfl⟩

theorem runAll_cons_of_next {i : Instr} {s t : State} (h : exec i s = .next t) (is : List Instr) :
    runAll (i :: is) s = runAll is t := by
  rw [runAll, h]

theorem runAll_append_of_next {is js : List Instr} {s t : State} (h : runAll is s = .next t) :
    runAll (is ++ js) s = runAll js t := by
  induction is generalizing s with
  | nil => cases h; rfl
  | cons i is ih =>
    obtain ⟨u, hu, -⟩ := exec_completes i s
    rw [runAll_cons_of_next hu] at h
    rw [List.cons_append, runAll_cons_of_next hu, ih h]

/-- EDGEs of channel m at one level, among operations that write none of its positions, count in one direction (R95). -/
theorem runAll_counts (m : Chan) (l : Bool) (is : List Instr) (s : State)
    (h : ∀ i ∈ is, (∃ cap, i = Instr.edge m l cap) ∨ WritesNoPosition m i) :
    ∃ t, runAll is s = .next t ∧ t.cfg = s.cfg ∧
      s32 (t.blk.chan m).pos = countedFrom (edgeForward (s.cfg.chan m) l) (s32 (s.blk.chan m).pos) (edgeCount m is) := by
  induction is generalizing s with
  | nil => exact ⟨s, rfl, rfl, (countedFrom_zero _ (s32_range _)).symm⟩
  | cons i is ih =>
    obtain ⟨hi, his⟩ := List.forall_mem_cons.1 h
    obtain ⟨u, hu, hucfg⟩ := exec_completes i s
    obtain ⟨t, ht, htcfg, hpos⟩ := ih u his
    refine ⟨t, (runAll_cons_of_next hu is).trans ht, htcfg.trans hucfg, ?_⟩
    rw [hpos, hucfg]
    rcases hi with ⟨cap, rfl⟩ | hquiet
    · rw [exec_edge] at hu; cases hu
      rw [edge_pos, countedFrom_one, edgeCount_cons_edge]
    · rw [pos_of_writesNoPosition hquiet hu, edgeCount_cons_of_writesNoPosition hquiet]

/-! ### PERIOD -/

/-- R93's difference of the overflow counts, can drop its modulus: 256 shifted by 16 bits is 0 in the 24 bits of the result. -/
theorem period_toNat (c : Channel) :
    ((period c).toNat : Int) =
        ((((c.edge2.ovf.toNat : Int) - c.edge1.ovf.toNat) % 256) * 65536 + c.edge2.cap.toNat - c.edge1.cap.toNat) % 2 ^ 24 ∧
      ((period c).toNat : Int) =
        ((c.edge2.ovf.toNat * 65536 + c.edge2.cap.toNat : Int) - (c.edge1.ovf.toNat * 65536 + c.edge1.cap.toNat)) % 2 ^ 24 := by
  rw [period, BitVec.toNat_ofInt]
  omega

/-- The 24 bits of a period are the low bits of its register, whose other bits are 0 (R162). -/
theorem regWord_period_toNat (c : Channel) : (regWord c .period).toNat = (period c).toNat :=
  BitVec.toNat_setWidth_of_le (by decide)

/-! ### The statements of the family -/

/-- Settles O16: the Forward edges count up from the start, the Reverse edges down from where they end. -/
theorem edgeRoundTripOfTheCount : Obligations.EdgeRoundTripOfTheCount := by
  intro m s fwd rev hfwd hrev
  obtain ⟨u, hu, hucfg, hup⟩ := runAll_counts m _ fwd s hfwd
  obtain ⟨t, ht, -, hdown⟩ := runAll_counts m _ rev u hrev
  refine ⟨t, (runAll_append_of_next hu).trans ht, ?_⟩
  rw [edgeForward_polarity, countedFrom_up] at hup
  rw [hucfg, edgeForward_of_ne (Bool.not_ne_self _), countedFrom_down, hup] at hdown
  exact hdown

/-- Settles O14, from the whole effect of an EDGE on its channel, in each direction and with and without timestamps. -/
theorem edgeCountsAndRotates : Obligations.EdgeCountsAndRotates := by
  intro m level cap s
  have hpos := edge_pos s.cfg m level cap s.blk
  have hqdir := edge_qdir s.cfg m level cap s.blk
  obtain ⟨hedge1, hedge2⟩ := edge_stamps s.cfg m level cap s.blk
  refine ⟨_, exec_edge m level cap s, fun h => ?_, fun h => ?_, fun h => ?_, fun h => ?_⟩
  · rw [h, edgeForward_polarity] at hpos hqdir
    exact ⟨h ▸ hqdir, h ▸ hpos⟩
  · rw [edgeForward_of_ne h] at hpos hqdir
    exact ⟨hqdir, hpos⟩
  · rw [h] at hedge1 hedge2
    exact ⟨hedge1, hedge2⟩
  · rw [h] at hedge1 hedge2
    exact ⟨hedge1, hedge2⟩

/-- Settles O15: an EDGE writes the record of its channel alone, and in it the fields of R89 to R92. -/
theorem edgeFrame : Obligations.EdgeFrame := by
  intro m level cap s t ht
  rw [exec_edge] at ht; cases ht
  refine ⟨⟨fun n hn => edge_other _ _ _ _ _ _ hn, edge_globals _ _ _ _ _⟩, rfl, rfl, ?_⟩
  simp only [edge_chan]

/-- Settles O18: the register's word is the period, by either formula. -/
theorem periodIsTheTimeBetweenEdges : Obligations.PeriodIsTheTimeBetweenEdges := by
  intro m s
  refine ⟨regWord (s.blk.chan m) .period, exec_rd m .period s, ?_⟩
  rw [regWord_period_toNat]
  exact period_toNat _

/-- Settles O17: the count of an OVF is reduced once by the rule, and fits its register. -/
theorem overflowCountsModulo256 : Obligations.OverflowCountsModulo256 := by
  intro s
  refine ⟨_, finishQuiet_eq s (overflow s.blk), ?_, rfl, rfl, rfl⟩
  rw [overflow_ovfCnt, BitVec.toNat_ofNat]
  exact Nat.mod_mod _ _

end Sys2Proof.Machine

/-! ## The speed estimator (spec/42_speed_estimator.md)

The number a speed register holds, and what a TICK leaves in the speed and the sample: the lemmas first, the statement of the
family at the end. -/

namespace Sys2Proof.Machine

/-! ### The number of a speed -/

/-- A natural number saturated to u32 fits the register it is stored in (R13, R98). -/
theorem toNat_u32_satu32 (n : Nat) : (u32 (satu32 n)).toNat = min n (2 ^ 32 - 1) := by
  have hread : ((u32 (satu32 n)).toNat : Int) = satu32 n := by apply toNat_u32 <;> unfold satu32 <;> omega
  unfold satu32 at hread ⊢
  omega

/-- The register of a motion of `d` ticks: products first, then the one floor division, then the saturation (R98, R99). -/
theorem toNat_u32_speedOf (n : Nat) (k : ChannelConfig) (d : Nat) :
    (u32 (speedOf n k d)).toNat = min (d * (1000 / n) * k.mmPerRev / k.ticksPerRev) (2 ^ 32 - 1) :=
  toNat_u32_satu32 _

/-! ### The estimator through a TICK -/

/-- A sub-rate tick ends with the position it started with as the sample, and with the speed of the motion since the last one:
neither the controllers nor a trip write them (R86, R98). -/
theorem tick_estimated {k : Config} (sw : BitVec 6) {b : Block} (m : Chan) (hs : subrateTick k b = true) :
    ((tick k sw b).chan m).prev = (b.chan m).pos ∧
      ((tick k sw b).chan m).speed =
        u32 (speedOf k.subrateN (k.chan m) (s32 (b.chan m).pos - s32 (b.chan m).prev).natAbs) := by
  obtain ⟨-, -, hspeed, hprev, -⟩ := tick_carries k sw b m
  rw [hspeed, hprev]
  exact (readyChannel_speed k _ sw m (b.chan m)).1 hs

/-- A plain tick leaves the speed and the sample (R100). -/
theorem tick_unestimated {k : Config} (sw : BitVec 6) {b : Block} (m : Chan) (hs : subrateTick k b = false) :
    ((tick k sw b).chan m).prev = (b.chan m).prev ∧ ((tick k sw b).chan m).speed = (b.chan m).speed := by
  obtain ⟨-, -, hspeed, hprev, -⟩ := tick_carries k sw b m
  rw [hspeed, hprev]
  exact (readyChannel_speed k _ sw m (b.chan m)).2 hs

/-! ### The statement of the family -/

/-- Settles O22: the estimator writes the sample and the speed's number on a sub-rate tick, and is skipped on any other. -/
theorem subrateTickMeasuresSpeed : Obligations.SubrateTickMeasuresSpeed := by
  intro s t sw ht m
  rw [exec_tick] at ht; cases ht
  refine ⟨fun hs => ?_, fun hs => tick_unestimated sw m ((not_onSubrate_iff s).1 hs)⟩
  obtain ⟨hprev, hspeed⟩ := tick_estimated sw m ((onSubrate_iff s).1 hs)
  refine ⟨hprev, ?_⟩
  rw [hspeed]
  exact toNat_u32_speedOf _ _ _

end Sys2Proof.Machine

/-! ## The position controller (spec/43_pid_position_controller.md)

The mode gate through a TICK, the values an enabled run records, and where it sends the outputs: the lemmas first, the statements
of the family at the end. -/

namespace Sys2Proof.Machine

/-! ### The mode gate through a TICK -/

/-- The stages before a controller enable no channel (R129). -/
theorem controlInput_mode_of_not_enabled {k : Config} (sw : BitVec 6) {b : Block} {m : Chan}
    (h : (b.chan m).mode ≠ .positionControl) : (controlInput k sw b m).mode ≠ .positionControl := by
  rw [controlInput_mode]
  split
  · decide
  · exact h

/-- A tick whose controller finds its channel not enabled brakes it with a zero integral and records no error (R104). -/
theorem tick_gated {k : Config} (sw : BitVec 6) {b : Block} {m : Chan} (hmode : (b.chan m).mode ≠ .positionControl)
    (hrun : m = .x ∨ (divergence b).natAbs < k.mismatchLimit) :
    Braked (k.chan m) ((tick k sw b).chan m) ∧ ((tick k sw b).chan m).pos = (b.chan m).pos ∧
      ((tick k sw b).chan m).err = (b.chan m).err ∧ ((tick k sw b).chan m).efferr = (b.chan m).efferr ∧
      ((tick k sw b).chan m).integ = 0 := by
  obtain ⟨hpos, herr, hefferr, -⟩ := controlInput_keeps k sw b m
  rw [tick_runs_control sw hrun, control_gate (controlInput_mode_of_not_enabled sw hmode)]
  exact ⟨braked_gateExit _ _, hpos, herr, hefferr, rfl⟩

/-- No tick enables a channel, so a channel that was not enabled is not enabled after it (R183). -/
theorem tick_mode_of_not_enabled {k : Config} (sw : BitVec 6) {b : Block} {m : Chan}
    (h : (b.chan m).mode ≠ .positionControl) : ((tick k sw b).chan m).mode ≠ .positionControl := by
  rcases tick_mode_disabled_or_same k sw b m with hd | hsame
  · rw [hd]; decide
  · rwa [hsame]

/-! ### What an enabled run records -/

/-- The positions a switch forces fit the register (R9). -/
theorem channelConfig_switchPositions {k : ChannelConfig} (h : k.wf = true) : InI32 k.homePos ∧ InI32 k.limitPos := by
  obtain ⟨hpositions, -⟩ := (channelConfig_wf_iff k).1 h
  exact ((positionsOk_iff k).1 hpositions).2

/-- Step 3's position: the home switch first, then the limit switch, else the encoder's (R106). -/
theorem toInt_switchOverride_pos {k : ChannelConfig} (hwf : k.wf = true) (c : Channel) :
    (switchOverride k c).pos.toInt = if c.homeSw then k.homePos else if c.limitSw then k.limitPos else c.pos.toInt := by
  obtain ⟨hhome, hlimit⟩ := channelConfig_switchPositions hwf
  unfold switchOverride
  split
  · exact s32_u32 hhome.1 hhome.2
  · split
    · exact s32_u32 hlimit.1 hlimit.2
    · rfl

/-- Step 4 takes its error from the command and the position that steps 2 and 3 leave (R107). -/
theorem prepare_err (k : ChannelConfig) (cap : Option Int) (c : Channel) :
    (prepare k cap c).err = u32 (ownError (prepare k cap c)) := rfl

theorem ownError_inI32 (c : Channel) : InI32 (ownError c) := sat32_range _

/-- A cap that fits the register keeps the error in it (R107). -/
theorem effectiveError_inI32 {cap : Option Int} (hcap : ∀ v ∈ cap, InI32 v) {own : Int} (hown : InI32 own) :
    InI32 (effectiveError cap own) := by
  cases cap with
  | none => exact hown
  | some v =>
    obtain ⟨hlo, hhi⟩ := hcap v rfl
    obtain ⟨hlo', hhi'⟩ := hown
    exact ⟨le_min hlo' hlo, (min_le_left _ _).trans hhi'⟩

/-- The recorded effective error reads back as the number steps 5 to 12 use (R107). -/
theorem toInt_control_efferr {k : ChannelConfig} {cap : Option Int} {c : Channel} (hmode : c.mode = .positionControl)
    (hcap : ∀ v ∈ cap, InI32 v) : (control k cap c).efferr.toInt = controlError k cap c := by
  obtain ⟨-, -, -, hefferr⟩ := control_prepared (k := k) (cap := cap) hmode
  obtain ⟨hlo, hhi⟩ := effectiveError_inI32 hcap (ownError_inI32 (switchOverride k (clampCommand k c)))
  rw [hefferr]
  exact s32_u32 hlo hhi

/-! ### The integral -/

/-- Step 6's value fits its register (R9, R109). -/
theorem toInt_u32_nextIntegral {k : ChannelConfig} (hwf : k.wf = true) (i e : Int) :
    (u32 (nextIntegral k i e)).toInt = nextIntegral k i e := by
  obtain ⟨hlimit, -⟩ := channelConfig_limits hwf
  have hrange : -(k.integralLimit : Int) ≤ nextIntegral k i e ∧ nextIntegral k i e ≤ k.integralLimit := by
    unfold nextIntegral
    split
    · omega
    · exact clamp_range (by omega)
  exact s32_u32 (by omega) (by omega)

/-- With a divisor, step 6 adds the quotient truncated toward zero and clamps the exact sum (R109, R113). -/
theorem nextIntegral_of_gain {k : ChannelConfig} (h : k.gainI ≠ 0) (i e : Int) :
    nextIntegral k i e = min (max (i + Int.tdiv e k.gainI) (-(k.integralLimit : Int))) k.integralLimit := by
  rw [nextIntegral, if_neg h, tdiv_eq, clamp]

/-! ### Inside and outside the deadband -/

/-- Step 5's exit leaves what the mode gate leaves, in the prepared channel (R108). -/
theorem control_inside {k : ChannelConfig} {cap : Option Int} {c : Channel} (hmode : c.mode = .positionControl)
    (hd : (controlError k cap c).natAbs ≤ k.deadband) : control k cap c = gateExit k (prepare k cap c) := by
  rw [control_enabled hmode, act, if_pos hd]
  rfl

/-- `ec` of step 8, from the channel a run starts from (R111). -/
def controlSum (k : ChannelConfig) (cap : Option Int) (c : Channel) : Int :=
  nextIntegral k (s32 c.integ) (controlError k cap c) + proportional k (controlError k cap c)

/-- Outside the deadband a run ends in the output stage, on the control sum's direction and magnitude (R109 to R112, R117). -/
theorem control_outside {k : ChannelConfig} {cap : Option Int} {c : Channel} (hmode : c.mode = .positionControl)
    (hd : k.deadband < (controlError k cap c).natAbs) :
    control k cap c =
      output k (wantedDirection (controlSum k cap c) (targetSpeed k (controlSum k cap c))) (targetSpeed k (controlSum k cap c))
        { prepare k cap c with integ := u32 (nextIntegral k (s32 c.integ) (controlError k cap c)) } := by
  have hinteg : (prepare k cap c).integ = c.integ := by rw [prepare_fields]
  rw [control_enabled hmode, act, if_neg (Nat.not_le.2 hd), hinteg]
  rfl

/-- The output stage writes the three outputs only, so the integral it ends with is step 6's (R109, R117). -/
theorem output_integ (k : ChannelConfig) (w : Direction) (v : Nat) (c : Channel) : (output k w v c).integ = c.integ := by
  rcases output_cases k w v c with ⟨h, -⟩ | ⟨h, -⟩ <;> rw [h]
  · rfl
  · rfl

theorem toInt_control_integ {k : ChannelConfig} {cap : Option Int} {c : Channel} (hwf : k.wf = true)
    (hmode : c.mode = .positionControl) (hd : k.deadband < (controlError k cap c).natAbs) :
    (control k cap c).integ.toInt = nextIntegral k c.integ.toInt (controlError k cap c) := by
  rw [control_outside hmode hd, output_integ]
  exact toInt_u32_nextIntegral hwf _ _

/-- The control sum is the integral just written plus the proportional term of the recorded effective error (R110, R111). -/
theorem controlSum_eq {k : ChannelConfig} {cap : Option Int} {c : Channel} (hwf : k.wf = true)
    (hmode : c.mode = .positionControl) (hcap : ∀ v ∈ cap, InI32 v) (hd : k.deadband < (controlError k cap c).natAbs) :
    (control k cap c).integ.toInt + Int.tdiv ((control k cap c).efferr.toInt * k.gainP) k.gainPFactor =
      controlSum k cap c := by
  rw [toInt_control_integ hwf hmode hd, toInt_control_efferr hmode hcap, ← tdiv_eq]
  rfl

/-! ### The output stage -/

theorem wantedDirection_pos {ec : Int} {v : Nat} (hec : 0 < ec) (hv : v ≠ 0) : wantedDirection ec v = .forward := by
  rw [wantedDirection, if_neg hv, if_pos hec]

theorem wantedDirection_neg {ec : Int} {v : Nat} (hec : ec < 0) (hv : v ≠ 0) : wantedDirection ec v = .reverse := by
  rw [wantedDirection, if_neg hv, if_neg (by omega)]

theorem opposes_forward {d : Direction} : opposes d .forward = true ↔ d = .reverse := by cases d <;> decide

theorem opposes_reverse {d : Direction} : opposes d .reverse = true ↔ d = .forward := by cases d <;> decide

/-- `Output` brakes on a wanted Brake and on a drive opposite to the one that is on (R117, R118). -/
theorem braked_output {k : ChannelConfig} {w : Direction} {c : Channel} (v : Nat)
    (h : w = .brake ∨ opposes c.direction w = true) : Braked k (output k w v c) := by
  rcases output_cases k w v c with ⟨hb, -⟩ | ⟨-, hw, ho⟩
  · rw [hb]; exact braked_brakeOutputs k c
  · exact h.elim (absurd · hw) (by simp [ho])

/-- Any other wanted drive is committed at the slewed speed, with the duty of that speed (R119, R120, R121). -/
theorem output_drives {k : ChannelConfig} {w : Direction} {v : Nat} {c : Channel} (hv : v ≤ 100) (hw : w ≠ .brake)
    (ho : opposes c.direction w = false) :
    (output k w v c).direction = w ∧ (output k w v c).setSpeed.toNat = min v (c.setSpeed.toNat + k.slewRate) ∧
      ((output k w v c).pwmDuty.toNat : Int) = duty k w (output k w v c).setSpeed.toNat := by
  rcases output_cases k w v c with ⟨-, hb⟩ | ⟨h, -⟩
  · exact hb.elim (absurd · hw) (by simp [ho])
  · have hspeed : (output k w v c).setSpeed.toNat = min v (c.setSpeed.toNat + k.slewRate) := by
      rw [h, commitOutput_setSpeed, BitVec.toNat_ofNat]
      omega
    refine ⟨by rw [h]; rfl, hspeed, ?_⟩
    obtain ⟨hlo, hhi⟩ := duty_range k hw (min v (c.setSpeed.toNat + k.slewRate))
    rw [hspeed, h, commitOutput_pwmDuty, BitVec.toNat_ofInt]
    omega

/-- Outside the deadband a run brakes where its wanted direction is Brake or opposes the channel's (R112, R118). -/
theorem control_brakes {k : ChannelConfig} {cap : Option Int} {c : Channel} {w : Direction}
    (hmode : c.mode = .positionControl) (hd : k.deadband < (controlError k cap c).natAbs)
    (hwant : wantedDirection (controlSum k cap c) (targetSpeed k (controlSum k cap c)) = w)
    (h : w = .brake ∨ opposes c.direction w = true) : Braked k (control k cap c) := by
  have hdir : (prepare k cap c).direction = c.direction := by rw [prepare_fields]
  rw [control_outside hmode hd, hwant]
  exact braked_output _ (by rwa [hdir])

/-- Outside the deadband a wanted drive that opposes none is the output, at the slewed speed and its duty (R119 to R121). -/
theorem control_drives {k : ChannelConfig} {cap : Option Int} {c : Channel} {w : Direction} (hwf : k.wf = true)
    (hmode : c.mode = .positionControl) (hd : k.deadband < (controlError k cap c).natAbs)
    (hwant : wantedDirection (controlSum k cap c) (targetSpeed k (controlSum k cap c)) = w) (hw : w ≠ .brake)
    (ho : opposes c.direction w = false) :
    let d := control k cap c
    d.direction = w ∧ d.setSpeed.toNat = min (targetSpeed k (controlSum k cap c)) (c.setSpeed.toNat + k.slewRate) ∧
      (d.pwmDuty.toNat : Int) = duty k w d.setSpeed.toNat := by
  obtain ⟨hmax, -⟩ := channelConfig_drive hwf
  have hdir : (prepare k cap c).direction = c.direction := by rw [prepare_fields]
  have hspeed : (prepare k cap c).setSpeed = c.setSpeed := by rw [prepare_fields]
  dsimp only
  rw [control_outside hmode hd, hwant, ← hspeed]
  exact output_drives ((targetSpeed_le k _).trans hmax) hw (by rwa [hdir])

/-- Forward's duty in the words of R120. -/
theorem duty_forward (k : ChannelConfig) (v : Nat) :
    duty k .forward v = min (max (k.dutyFwdOffset + Int.tdiv (k.dutyFwdK * v) k.dutyKDen) 0) 100 := by
  rw [duty, dutyMap, tdiv_eq, clamp]

/-- Reverse's duty in the words of R120. -/
theorem duty_reverse (k : ChannelConfig) (v : Nat) :
    duty k .reverse v = min (max (k.dutyRevOffset + Int.tdiv (k.dutyRevK * v) k.dutyKDen) 0) 100 := by
  rw [duty, dutyMap, tdiv_eq, clamp]

/-! ### The statements of the family -/

/-- Settles O31: the sum is read back from the registers, and each clause is a wanted direction with a case of the interlock. -/
theorem outputFollowsTheControlSum : Obligations.OutputFollowsTheControlSum := by
  intro k cap c hwf hmode hcap hd
  rw [toInt_control_efferr hmode hcap] at hd
  dsimp only
  rw [controlSum_eq hwf hmode hcap hd, ← targetSpeed]
  refine ⟨fun h0 => ?_, fun hec h0 hdir => ?_, fun hec h0 hdir => ?_, fun hec h0 hdir => ?_, fun hec h0 hdir => ?_⟩
  · exact control_brakes hmode hd (by rw [h0, wantedDirection_zero]) (.inl rfl)
  · exact control_brakes hmode hd (wantedDirection_pos hec h0) (.inr (opposes_forward.2 hdir))
  · exact control_brakes hmode hd (wantedDirection_neg hec h0) (.inr (opposes_reverse.2 hdir))
  · rw [← duty_forward]
    exact control_drives hwf hmode hd (wantedDirection_pos hec h0) (by decide)
      (Bool.eq_false_iff.2 (mt opposes_forward.1 hdir))
  · rw [← duty_reverse]
    exact control_drives hwf hmode hd (wantedDirection_neg hec h0) (by decide)
      (Bool.eq_false_iff.2 (mt opposes_reverse.1 hdir))

/-- Settles O28: the registers read back as the numbers of steps 2 to 4, which fit them under a valid configuration. -/
theorem enabledControllerComputesItsError : Obligations.EnabledControllerComputesItsError := by
  intro k cap c hwf hmode hcap
  obtain ⟨hpos, hcmd, herr, -⟩ := control_prepared (k := k) (cap := cap) hmode
  have hefferr := toInt_control_efferr (k := k) hmode hcap
  have hown : (control k cap c).err.toInt = ownError (prepare k cap c) := by
    obtain ⟨hlo, hhi⟩ := ownError_inI32 (prepare k cap c)
    rw [herr, prepare_err]
    exact s32_u32 hlo hhi
  dsimp only
  refine ⟨?_, ?_, ?_, fun hnone => ?_, fun v hv => ?_⟩
  · rw [hcmd, prepare_cmd]
    exact toNat_clampedCommand hwf _
  · rw [hpos]
    exact toInt_switchOverride_pos hwf (clampCommand k c)
  · rw [hown, hcmd, hpos]
    rfl
  · apply BitVec.eq_of_toInt_eq
    rw [hefferr, hown, hnone]
    rfl
  · rw [hefferr, hown, hv]
    rfl

/-- Settles O30: the register reads back as step 6's value, in each of its two cases. -/
theorem integralAccumulates : Obligations.IntegralAccumulates := by
  intro k cap c hwf hmode hcap hd
  rw [toInt_control_efferr hmode hcap] at hd ⊢
  have hinteg := toInt_control_integ hwf hmode hd
  refine ⟨fun hoff => BitVec.eq_of_toInt_eq ?_, fun hon => ?_⟩
  · rw [hinteg, nextIntegral, if_pos hoff]
    rfl
  · rw [hinteg, nextIntegral_of_gain hon]

/-- Settles O29: the deadband's exit is the gate's, and reads no output of the tick before. -/
theorem deadbandBrakes : Obligations.DeadbandBrakes := by
  intro k cap c _ hmode hcap hd
  rw [toInt_control_efferr hmode hcap] at hd
  rw [control_inside hmode hd]
  exact ⟨braked_gateExit k _, rfl⟩

/-- Settles O27: the channel's controller runs and finds the gate closed, or the trip skips it. -/
theorem modeGateBrakes : Obligations.ModeGateBrakes := by
  intro s sw m hmode
  refine ⟨_, exec_tick sw s, ?_⟩
  have hcmd (hm : m ≠ .yr) := tick_cmd_of_not_enabled hm (tick_mode_of_not_enabled (k := s.cfg) sw hmode)
  by_cases hrun : m = .x ∨ divergenceOf s.blk < s.cfg.mismatchLimit
  · obtain ⟨hbraked, hpos, herr, hefferr, hinteg⟩ := tick_gated sw hmode hrun
    exact ⟨hbraked, hpos, herr, hefferr, hcmd, fun _ => hinteg, fun hm hd => absurd hrun (not_or.2 ⟨hm, Nat.not_lt.2 hd⟩)⟩
  · obtain ⟨hm, hd⟩ := not_or.1 hrun
    obtain ⟨hbraked, hpos, herr, hefferr, hinteg⟩ := tick_trips sw (Nat.not_lt.1 hd) hm
    exact ⟨hbraked, hpos, herr, hefferr, hcmd, fun h => absurd h hrun, fun _ _ => hinteg⟩

/-- Settles O32: a run keeps the eleven other fields, and the gate's exit writes the outputs and the integral only. -/
theorem controllerFrame : Obligations.ControllerFrame := by
  intro k cap c
  obtain ⟨hqdir, hmode, hhome, hlimit, herror, hspeed, hprev, hstrike, hlast, hedge1, hedge2⟩ := control_keeps k cap c
  refine ⟨?_, fun hgate => ?_⟩
  · rw [← hqdir, ← hmode, ← hhome, ← hlimit, ← herror, ← hspeed, ← hprev, ← hstrike, ← hlast, ← hedge1, ← hedge2]
  · rw [control_gate hgate]
    exact ⟨rfl, rfl, rfl, rfl⟩

end Sys2Proof.Machine

/-! ## The output stage (spec/44_slew_rate_limiter.md)

What the interlock and the slew limit allow between two values of a channel's outputs, kept from one controller run to a whole
step: the lemmas first, the statements of the family at the end. -/

namespace Sys2Proof.Machine

/-! ### A move of the outputs -/

/-- Between `c` and `d` the outputs of a channel moved as the interlock and the slew limit allow (R118, R119, R122). -/
structure OutputMove (k : ChannelConfig) (c d : Channel) : Prop where
  noReversal : opposes c.direction d.direction = false
  slewed : d.setSpeed.toNat ≤ c.setSpeed.toNat + k.slewRate

theorem opposes_brake (d : Direction) : opposes d .brake = false := by cases d <;> rfl

theorem opposes_self (d : Direction) : opposes d d = false := by cases d <;> rfl

theorem OutputMove.of_same {k : ChannelConfig} {c d : Channel} (hdir : d.direction = c.direction)
    (hspeed : d.setSpeed = c.setSpeed) : OutputMove k c d where
  noReversal := by rw [hdir, opposes_self]
  slewed := by rw [hspeed]; exact Nat.le_add_right _ _

/-- Braking is allowed after anything, and there is no limit on a decrease (R119, R122). -/
theorem OutputMove.of_braked {k : ChannelConfig} {d : Channel} (c : Channel) (h : Braked k d) : OutputMove k c d := by
  obtain ⟨hdir, hspeed, -⟩ := h
  exact ⟨by rw [hdir, opposes_brake], by rw [hspeed]; exact Nat.zero_le _⟩

/-- A committed drive is an allowed move where it opposes none, its speed being cut to the slew limit (R119, R121). -/
theorem outputMove_commitOutput {k : ChannelConfig} {w : Direction} {c : Channel} (p : Channel) (v : Nat)
    (ho : opposes c.direction w = false) :
    OutputMove k c (commitOutput k w (min v (c.setSpeed.toNat + k.slewRate)) p) where
  noReversal := ho
  slewed := by
    rw [commitOutput_setSpeed, BitVec.toNat_ofNat]
    exact (Nat.mod_le _ _).trans (Nat.min_le_right _ _)

/-- A controller run brakes, or commits a drive that its interlock let through (R117). -/
theorem control_outputMove (k : ChannelConfig) (cap : Option Int) (c : Channel) : OutputMove k c (control k cap c) := by
  rcases control_cases k cap c with ⟨-, h⟩ | ⟨-, ⟨-, h⟩ | ⟨-, h, -⟩ | ⟨-, h, -, ho⟩⟩ <;> rw [h]
  · exact .of_braked c (braked_gateExit k _)
  · exact .of_braked c (braked_gateExit k _)
  · exact .of_braked c (braked_brakeOutputs k _)
  · exact outputMove_commitOutput _ _ ho

/-! ### The same of a TICK, an instruction and a step -/

/-- A controller finds the outputs as the tick found them, unless the detector latched the channel (R86, R129). -/
theorem controlInput_outputs {k : Config} (sw : BitVec 6) {b : Block} {m : Chan} (hl : ¬ LatchesInTick k b m) :
    (controlInput k sw b m).direction = (b.chan m).direction ∧ (controlInput k sw b m).setSpeed = (b.chan m).setSpeed := by
  rcases readyChannel_latch k (subrateTick k b) sw m (b.chan m) with ⟨hs, hn, -⟩ | ⟨-, -, -, hdir, hspeed, -⟩
  · exact absurd ⟨hs, hn⟩ hl
  · exact ⟨hdir, hspeed⟩

/-- A tick writes the outputs by one controller run or brakes. A channel it latches is braked twice: the Brake the latch writes
opens no way to a drive in the same tick, because the latch closes the mode gate as well (R123, R129). -/
theorem tick_outputMove (k : Config) (sw : BitVec 6) (b : Block) (m : Chan) :
    OutputMove (k.chan m) (b.chan m) ((tick k sw b).chan m) := by
  by_cases hl : LatchesInTick k b m
  · obtain ⟨-, hbraked, -⟩ := tick_latched sw hl
    exact .of_braked _ hbraked
  · obtain ⟨hdir, hspeed⟩ := controlInput_outputs sw hl
    rcases tick_control_or_brake k sw b m with ⟨-, h⟩ | ⟨-, -, h⟩ <;> rw [h]
    · obtain ⟨hrev, hslew⟩ := control_outputMove (k.chan m) (controlCap b m) (controlInput k sw b m)
      rw [hdir] at hrev
      rw [hspeed] at hslew
      exact ⟨hrev, hslew⟩
    · exact .of_braked _ (braked_brakeOutputs _ _)

/-- No instruction but TICK writes the outputs (R122, R204). -/
theorem channelEffect_outputMove {k : Config} {b : Block} {m : Chan} {i : Instr} {c : Channel}
    (h : ChannelEffect k b m i c) : OutputMove (k.chan m) (b.chan m) c := by
  cases h with
  | unchanged | pos | cmd | mode | clear => exact .of_same rfl rfl
  | edge l cap => rw [edge_chan]; exact .of_same rfl rfl
  | tick sw => exact tick_outputMove k sw b m

theorem step_outputMove {s t : State} (h : step s = .next t) (m : Chan) :
    OutputMove (s.cfg.chan m) (s.blk.chan m) (t.blk.chan m) := by
  obtain ⟨-, -, hb | ⟨i, he⟩⟩ := step_effect h
  · rw [hb]; exact .of_same rfl rfl
  · exact channelEffect_outputMove (he.channel m)

/-! ### The statements of the family -/

/-- Settles O34: a step's move of the outputs never opposes the direction that was on, whichever of the two it was. -/
theorem noDirectReversal : Obligations.NoDirectReversal := by
  intro s t m h
  obtain ⟨hrev, -⟩ := step_outputMove h m
  refine ⟨fun ⟨hfrom, hto⟩ => ?_, fun ⟨hfrom, hto⟩ => ?_⟩
  · rw [hto] at hrev
    exact Bool.eq_false_iff.1 hrev (opposes_reverse.2 hfrom)
  · rw [hto] at hrev
    exact Bool.eq_false_iff.1 hrev (opposes_forward.2 hfrom)

/-- Settles O33: the slew limit of a step's move of the outputs. -/
theorem appliedSpeedRisesByAtMostTheSlewRate : Obligations.AppliedSpeedRisesByAtMostTheSlewRate :=
  fun _ _ m h => (step_outputMove h m).slewed

end Sys2Proof.Machine

/-! ## The overload detector (spec/45_overload_stall_detector.md)

What one evaluation does to a channel held at full drive, and what a run of them adds up to: the lemmas first, the statement of
the family at the end. -/

namespace Sys2Proof.Machine

/-! ### One evaluation of an unlatched channel -/

theorem checkedChannel_of_stalls_below_limit {k : ChannelConfig} {c : Channel} (hnone : c.error = .none) (hs : Stalls k c)
    (hlt : (addStrike c).strike.toNat < k.strikeLimit) : checkedChannel k c = addStrike c := by
  have hlatch : ¬ latches k c = true := fun h => by
    obtain ⟨-, -, hreach⟩ := (latches_iff k c).1 h
    omega
  rw [checkedChannel, if_neg (by simp [hnone]), if_neg hlatch, evaluate_of_stalls hs]

theorem checkedChannel_of_stalls_at_limit {k : ChannelConfig} {c : Channel} (hnone : c.error = .none) (hs : Stalls k c)
    (hreach : k.strikeLimit ≤ (addStrike c).strike.toNat) : checkedChannel k c = latchChannel k (addStrike c) := by
  rw [checkedChannel, if_neg (by simp [hnone]), if_pos ((latches_iff k c).2 ⟨hnone, hs, hreach⟩), evaluate_of_stalls hs]

/-- Only a strike can latch, so an evaluation without one leaves a zero count and no fault (R126, R128). -/
theorem checkedChannel_of_not_stalls {k : ChannelConfig} {c : Channel} (hnone : c.error = .none) (hs : ¬ Stalls k c) :
    (checkedChannel k c).strike = 0 ∧ (checkedChannel k c).error = .none := by
  rcases checkedChannel_cases k c with ⟨he, -⟩ | ⟨-, hl, -⟩ | ⟨-, -, h⟩
  · rw [hnone] at he; cases he
  · exact absurd ((latches_iff k c).1 hl).2.1 hs
  · rw [h]; exact ⟨evaluate_strike_of_not_stalls hs, hnone⟩

/-! ### A channel held at full drive -/

/-- The channel drives at full speed in the direction of its last evaluation, with no fault and `n` strikes: the state in which
a measured speed below the floor, and nothing else, decides the next strike (R127, R132). -/
structure FullDrive (k : ChannelConfig) (n : Nat) (c : Channel) : Prop where
  unlatched : c.error = .none
  driving : c.direction ≠ .brake
  steady : c.lastDir = c.direction
  atMaxSpeed : c.setSpeed.toNat = k.maxSpeed
  count : c.strike.toNat = n

section
variable {k : ChannelConfig} {n : Nat} {c : Channel}

theorem FullDrive.with_speed (h : FullDrive k n c) (v : Word) : FullDrive k n { c with speed := v } :=
  ⟨h.unlatched, h.driving, h.steady, h.atMaxSpeed, h.count⟩

theorem FullDrive.stalls_iff_below_floor (h : FullDrive k n c) : Stalls k c ↔ c.speed.toNat < k.speedFloor :=
  ⟨fun ⟨_, _, _, hv⟩ => hv, fun hv => ⟨h.driving, h.steady.symm, h.atMaxSpeed, hv⟩⟩

/-- The count saturates at 65535 only (R127), which no strike below a valid limit reaches. -/
theorem FullDrive.addStrike_count (h : FullDrive k n c) (hn : n < 65535) : (addStrike c).strike.toNat = n + 1 := by
  rw [addStrike_toNat, h.count]
  omega

/-- A speed below the floor, short of the limit, adds one strike and keeps the full drive. -/
theorem FullDrive.checked_of_below_floor (h : FullDrive k n c) (hv : c.speed.toNat < k.speedFloor)
    (hlimit : k.strikeLimit ≤ 65535) (hn : n + 1 < k.strikeLimit) : FullDrive k (n + 1) (checkedChannel k c) := by
  have hcount := h.addStrike_count (by omega)
  rw [checkedChannel_of_stalls_below_limit h.unlatched (h.stalls_iff_below_floor.2 hv) (by omega)]
  exact ⟨h.unlatched, h.driving, h.steady, h.atMaxSpeed, hcount⟩

/-- A speed below the floor that brings the count to the limit latches (R129). -/
theorem FullDrive.checked_latches (h : FullDrive k n c) (hv : c.speed.toNat < k.speedFloor)
    (hlimit : k.strikeLimit ≤ 65535) (hn : n + 1 = k.strikeLimit) :
    (checkedChannel k c).error = .overload ∧ (checkedChannel k c).mode = .disabled := by
  have hcount := h.addStrike_count (by omega)
  rw [checkedChannel_of_stalls_at_limit h.unlatched (h.stalls_iff_below_floor.2 hv) (by omega)]
  exact ⟨latchChannel_error _ _, latchChannel_mode _ _⟩

/-- A speed at or above the floor zeroes the count (R128). -/
theorem FullDrive.checked_of_floor (h : FullDrive k n c) (hv : k.speedFloor ≤ c.speed.toNat) :
    (checkedChannel k c).strike = 0 ∧ (checkedChannel k c).error = .none :=
  checkedChannel_of_not_stalls h.unlatched fun hs => Nat.not_lt.2 hv (h.stalls_iff_below_floor.1 hs)

end

/-! ### A run of evaluations -/

/-- The evaluation of one measured speed, on its own channel (R125). -/
theorem overloadCheck_speed_chan (k : Config) (m : Chan) (v : Word) (b : Block) :
    (overloadCheck k m (b.setChan m { b.chan m with speed := v })).chan m =
      checkedChannel (k.chan m) { b.chan m with speed := v } := by
  rw [overloadCheck_chan, setChan_chan_same]

theorem evaluations_append (k : Config) (m : Chan) (vs ws : List Word) (b : Block) :
    evaluations k m (vs ++ ws) b = evaluations k m ws (evaluations k m vs b) := by
  induction vs generalizing b with
  | nil => rfl
  | cons v vs ih => exact ih _

theorem evaluations_concat_chan (k : Config) (m : Chan) (vs : List Word) (v : Word) (b : Block) :
    (evaluations k m (vs ++ [v]) b).chan m = checkedChannel (k.chan m) { (evaluations k m vs b).chan m with speed := v } := by
  rw [evaluations_append]
  exact overloadCheck_speed_chan k m v _

/-- A run of speeds below the floor that stays short of the limit adds one strike for each of them. -/
theorem evaluations_fullDrive {k : Config} {m : Chan} (hlimit : (k.chan m).strikeLimit ≤ 65535) {vs : List Word} {b : Block}
    {n : Nat} (h : FullDrive (k.chan m) n (b.chan m)) (hvs : ∀ v ∈ vs, v.toNat < (k.chan m).speedFloor)
    (hlt : n + vs.length < (k.chan m).strikeLimit) :
    FullDrive (k.chan m) (n + vs.length) ((evaluations k m vs b).chan m) := by
  induction vs generalizing b n with
  | nil => exact h
  | cons v vs ih =>
    obtain ⟨hv, hvs⟩ := List.forall_mem_cons.1 hvs
    rw [List.length_cons] at hlt ⊢
    have hstruck : FullDrive (k.chan m) (n + 1)
        ((overloadCheck k m (b.setChan m { b.chan m with speed := v })).chan m) := by
      rw [overloadCheck_speed_chan]
      exact (h.with_speed v).checked_of_below_floor hv hlimit (by omega)
    have hrun := ih hstruck hvs (by omega)
    rwa [Nat.add_right_comm] at hrun

/-! ### The statement of the family -/

/-- Settles O26: a run short of the limit keeps the full drive and counts its length; the run of the limit's length is such a run
and one more speed below the floor. -/
theorem strikesAccumulateAndReset : Obligations.StrikesAccumulateAndReset := by
  intro k m b speeds hwf hnone hdriving hsteady hmax hzero hbelow
  obtain ⟨hchannels, -⟩ := (config_wf_iff k).1 hwf
  obtain ⟨-, hlow, hhigh⟩ := channelConfig_limits (hchannels m)
  have hstart : FullDrive (k.chan m) 0 (b.chan m) := ⟨hnone, hdriving, hsteady, hmax, by rw [hzero]; rfl⟩
  refine ⟨fun hlt => ?_, fun hlen => ?_⟩
  · have hrun := evaluations_fullDrive hhigh hstart hbelow (by omega)
    rw [Nat.zero_add] at hrun
    refine ⟨hrun.unlatched, hrun.count, fun v hv => ?_⟩
    rw [evaluations_concat_chan]
    exact (hrun.with_speed v).checked_of_floor hv
  · obtain rfl | ⟨vs, v, rfl⟩ := List.eq_nil_or_concat' speeds
    · rw [List.length_nil] at hlen; omega
    · obtain ⟨hvs, hv⟩ := List.forall_mem_append.1 hbelow
      rw [List.length_append, List.length_singleton] at hlen
      have hrun := evaluations_fullDrive hhigh hstart hvs (by omega)
      rw [evaluations_concat_chan]
      exact (hrun.with_speed v).checked_latches (hv v (List.mem_singleton_self v)) hhigh (by omega)

end Sys2Proof.Machine

/-! ## The synchronizer's divergence (spec/46_dual_motor_synchronizer.md) -/

namespace Sys2Proof.Machine

/-- The word a tick writes in lr reads back as the divergence itself, because `sat32` leaves nothing for 32 bits to cut off. The
switch overrides of the same tick do not show in it: `tick_globals` names the divergence of the block before the tick (R136). -/
theorem toInt_tick_lr (k : Config) (sw : BitVec 6) (b : Block) : (tick k sw b).lr.toInt = divergence b := by
  obtain ⟨hlr, -⟩ := tick_globals k sw b
  rw [hlr]
  exact s32_u32_sat32 _

/-- Settles O35: the divergence is the saturated difference of the two Y positions. -/
theorem tickRecordsTheDivergence : Obligations.TickRecordsTheDivergence := by
  intro s t sw ht
  rw [exec_tick] at ht; cases ht
  calc (tick s.cfg sw s.blk).lr.toInt
      = divergence s.blk := toInt_tick_lr s.cfg sw s.blk
    _ = min (max (s.blk.yl.pos.toInt - s.blk.yr.pos.toInt) (-2147483648)) 2147483647 := sat32_eq _
    _ = min (max (s.blk.yl.pos.toInt - s.blk.yr.pos.toInt) (-2 ^ 31)) (2 ^ 31 - 1) := by norm_num

end Sys2Proof.Machine

/-! ## The host register interface and reset (spec/47_host_interface.md, spec/70_reset_and_hazards.md)

Which words WR_MODE and WR_CTRL accept, how the recovery of the Y axis runs, what number each packed register reads as, and
what the registers hold after reset: the lemmas first, the statements of the two families at the end. -/

namespace Sys2Proof.Machine

/-! ### How a WRITE is answered -/

/-- The machine after a WRITE that is answered OKAY and leaves the block `b` (R143). -/
abbrev State.accepted (s : State) (b : Block) : State := { s with blk := b, resp := some ⟨.okay, none⟩ }

/-- The machine after a WRITE that is answered ERR (R169). -/
abbrev State.rejected (s : State) : State := { s with resp := some ⟨.err, none⟩ }

/-- The block with the position of channel m loaded (R145). -/
def loadPos (m : Chan) (d : Word) (b : Block) : Block := b.setChan m { b.chan m with pos := d }

theorem exec_wrPos_loads (m : Chan) (d : Word) (s : State) :
    exec (Instr.wrPos m d) s = .next (s.accepted (loadPos m d s.blk)) := by
  rw [exec_wrPos, writePos, u32_s32, finishWrite_eq, loadPos]

/-! ### The words WR_MODE accepts -/

/-- The data word that asks WR_MODE for a mode (R15, R147). -/
def modeWord (v : Mode) : Word := (modeCode v).setWidth 32

theorem field_modeWord_reserved (v : Mode) : field (modeWord v) 2 30 = 0 := by cases v <;> decide

theorem modeOfCode_modeWord (v : Mode) : modeOfCode (field (modeWord v) 0 2) = some v := by cases v <;> decide

/-- From 3 on a data word stands for no mode: code 3 names none, and any other number has a reserved bit set (R147). -/
theorem mode_refused_of_three_le {d : Word} (h : 3 ≤ d.toNat) : field d 2 30 ≠ 0 ∨ modeOfCode (field d 0 2) = none := by
  by_cases h3 : d.toNat = 3
  · obtain rfl : d = 3#32 := BitVec.eq_of_toNat_eq h3
    exact .inr (by decide)
  · refine .inl fun hz => ?_
    have hreserved : d.toNat / 2 ^ 2 % 2 ^ 30 = 0 := (field_eq_iff _ _ _ _).1 hz
    have hlt := d.isLt
    omega

theorem exec_wrMode_stores {m : Chan} {d : Word} {s : State} {v : Mode} (hd : d.toNat = (modeWord v).toNat)
    (hfree : v = .disabled ∨ ¬ modeLocked m s.blk = true) :
    exec (Instr.wrMode m d) s = .next (s.accepted (s.blk.setChan m { s.blk.chan m with mode := v })) := by
  obtain rfl : d = modeWord v := BitVec.eq_of_toNat_eq hd
  rw [exec_wrMode, writeMode_stores (field_modeWord_reserved v) (modeOfCode_modeWord v) (by rwa [← Bool.not_eq_true]),
    finishWrite_eq]

theorem exec_wrMode_locked {m : Chan} {d : Word} {s : State} {v : Mode} (hd : d.toNat = (modeWord v).toNat)
    (hv : v ≠ .disabled) (hlocked : modeLocked m s.blk = true) :
    exec (Instr.wrMode m d) s = .next s.rejected := by
  obtain rfl : d = modeWord v := BitVec.eq_of_toNat_eq hd
  rw [exec_wrMode, writeMode_refuses (.inr (.inr ⟨v, modeOfCode_modeWord v, hv, hlocked⟩)), busErrorWrite_eq]

theorem exec_wrMode_reserved {d : Word} (hd : 3 ≤ d.toNat) (m : Chan) (s : State) :
    exec (Instr.wrMode m d) s = .next s.rejected := by
  rw [exec_wrMode, writeMode_refuses (or_assoc.1 (.inl (mode_refused_of_three_le hd))), busErrorWrite_eq]

/-! ### CLEAR -/

/-- What an accepted CLEAR leaves: no latch, no strike and no refusal flag, with every mode as it was (R149). -/
def cleared (b : Block) : Block :=
  { b with x := clearChannel b.x, yl := clearChannel b.yl, yr := clearChannel b.yr, yerr := .none, clrRefused := false }

theorem clearFaults_refused {k : Config} {b : Block} (h : b.yerr = .lrMismatch ∧ k.mismatchLimit ≤ divergenceOf b) :
    clearFaults k b = { b with clrRefused := true } := if_pos h

theorem clearFaults_accepted {k : Config} {b : Block} (h : ¬ (b.yerr = .lrMismatch ∧ k.mismatchLimit ≤ divergenceOf b)) :
    clearFaults k b = cleared b := if_neg h

/-- Every word but 0 and 1 has one of WR_CTRL's reserved bits set (R148). -/
theorem field_ctrl_reserved {d : Word} (h : 2 ≤ d.toNat) : field d 1 31 ≠ 0 := by
  intro hz
  have hreserved : d.toNat / 2 ^ 1 % 2 ^ 31 = 0 := (field_eq_iff _ _ _ _).1 hz
  have hlt := d.isLt
  omega

theorem exec_wrCtrl_clears {d : Word} (hd : d.toNat = 1) (s : State) :
    exec (.wrCtrl d) s = .next (s.accepted (clearFaults s.cfg s.blk)) := by
  obtain rfl : d = 1#32 := BitVec.eq_of_toNat_eq hd
  exact writeCtrl_one s

theorem exec_wrCtrl_zero {d : Word} (hd : d.toNat = 0) (s : State) :
    exec (.wrCtrl d) s = .next (s.accepted s.blk) := by
  obtain rfl : d = 0#32 := BitVec.eq_of_toNat_eq hd
  exact writeCtrl_without_clear (d := 0#32) s (by decide) (by decide)

theorem exec_wrCtrl_reserved {d : Word} (hd : 2 ≤ d.toNat) (s : State) : exec (.wrCtrl d) s = .next s.rejected :=
  writeCtrl_refuses s (field_ctrl_reserved hd)

/-! ### WRITEs outside the map -/

theorem writeWord_eq_ofNat (a : Addr) : writeWord a = BitVec.ofNat 32 (0x40000000 + a.toNat) := by
  rw [← writeWord_toNat, BitVec.ofNat_toNat, BitVec.setWidth_eq]

theorem step_write {s : State} {a : Addr} {d : Word} {rest : List Word} (hwf : s.cfg.wf = true)
    (hs : s.stimulus = BitVec.ofNat 32 (0x40000000 + a.toNat) :: d :: rest) :
    step s = runOperation (writeOperation a d) { s with stimulus := rest } :=
  step_of_decode hwf (by rw [hs, ← writeWord_eq_ofNat, decode_write])

/-- The WRITE map has no row for an address outside R143's nine. -/
theorem writeMap_lookup_none {a : Addr} (h : ¬ Writable a) : writeMap.lookup a.toNat = none := by
  rw [← Option.not_isSome_iff_eq_none, writeMap_lookup_isSome]
  simp only [Writable, List.mem_cons, List.not_mem_nil, or_false] at h ⊢
  omega

theorem writeOperation_unmapped {a : Addr} (d : Word) (h : ¬ Writable a) : writeOperation a d = .unmappedWrite a d := by
  rw [writeOperation, writeMap_lookup_none h]

/-! ### The recovery of the Y axis -/

/-- The block with channel m in PositionControl (R147). -/
def enableChan (m : Chan) (b : Block) : Block := b.setChan m { b.chan m with mode := .positionControl }

/-- Where nothing is latched, WR_MODE 2 enables its channel (R147). -/
theorem exec_wrMode_enables (m : Chan) {s : State} (herror : (s.blk.chan m).error = .none) (hyerr : s.blk.yerr = .none) :
    exec (Instr.wrMode m 2) s = .next (s.accepted (enableChan m s.blk)) := by
  have hfree : ¬ modeLocked m s.blk = true := by
    rw [modeLocked_iff, herror, hyerr]
    simp
  exact exec_wrMode_stores (v := .positionControl) rfl (.inr hfree)

/-- The return from the Y fault: an accepted CLEAR leaves no latch that could lock a Y channel (R178, R196). -/
theorem runAll_clear_enable {s : State}
    (hresolved : ¬ (s.blk.yerr = .lrMismatch ∧ s.cfg.mismatchLimit ≤ divergenceOf s.blk)) :
    runAll [.wrCtrl 1, .wrModeYl 2, .wrModeYr 2] s =
      .next (s.accepted (enableChan .yr (enableChan .yl (cleared s.blk)))) := by
  calc runAll [.wrCtrl 1, .wrModeYl 2, .wrModeYr 2] s
      = runAll [.wrModeYl 2, .wrModeYr 2] (s.accepted (clearFaults s.cfg s.blk)) :=
        runAll_cons_of_next (exec_wrCtrl_clears rfl s) _
    _ = runAll [.wrModeYl 2, .wrModeYr 2] (s.accepted (cleared s.blk)) := by rw [clearFaults_accepted hresolved]
    _ = runAll [.wrModeYr 2] (s.accepted (enableChan .yl (cleared s.blk))) :=
        runAll_cons_of_next (exec_wrMode_enables .yl rfl rfl) _
    _ = runAll [] (s.accepted (enableChan .yr (enableChan .yl (cleared s.blk)))) :=
        runAll_cons_of_next (exec_wrMode_enables .yr rfl rfl) _

/-- The divergence CLEAR tests is that of the two positions just loaded, so that it is accepted whatever is latched (R149). -/
theorem runAll_recovery {s : State} {p q : Word} (h : (sat32 (p.toInt - q.toInt)).natAbs < s.cfg.mismatchLimit) :
    runAll [.wrPosYl p, .wrPosYr q, .wrCtrl 1, .wrModeYl 2, .wrModeYr 2] s =
      .next (s.accepted (enableChan .yr (enableChan .yl (cleared (loadPos .yr q (loadPos .yl p s.blk)))))) := by
  calc runAll [.wrPosYl p, .wrPosYr q, .wrCtrl 1, .wrModeYl 2, .wrModeYr 2] s
      = runAll [.wrPosYr q, .wrCtrl 1, .wrModeYl 2, .wrModeYr 2] (s.accepted (loadPos .yl p s.blk)) :=
        runAll_cons_of_next (exec_wrPos_loads .yl p s) _
    _ = runAll [.wrCtrl 1, .wrModeYl 2, .wrModeYr 2] (s.accepted (loadPos .yr q (loadPos .yl p s.blk))) :=
        runAll_cons_of_next (exec_wrPos_loads .yr q _) _
    _ = _ := runAll_clear_enable fun ⟨_, hpersists⟩ => absurd h (Nat.not_lt.2 hpersists)

/-! ### The packed words as numbers -/

/-- The high part of a concatenation counts in units of the low part's width. -/
theorem toNat_append_eq_add {m n : Nat} (x : BitVec m) (y : BitVec n) : (x ++ y).toNat = x.toNat * 2 ^ n + y.toNat := by
  rw [BitVec.toNat_append, ← Nat.shiftLeft_add_eq_or_of_lt y.isLt, Nat.shiftLeft_eq]

theorem driveWord_toNat (c : Channel) : (driveWord c).toNat = c.pwmDuty.toNat * 2 ^ 8 + c.setSpeed.toNat := by
  simp only [driveWord, toNat_append_eq_add, BitVec.toNat_ofNat]
  omega

theorem stampWord_toNat (e : EdgeStamp) : (stampWord e).toNat = e.ovf.toNat * 2 ^ 16 + e.cap.toNat := by
  simp only [stampWord, toNat_append_eq_add, BitVec.toNat_ofNat]
  omega

theorem ystatWord_toNat (b : Block) : (ystatWord b).toNat = b.clrRefused.toNat * 2 ^ 8 + (yerrCode b.yerr).toNat := by
  simp only [ystatWord, toNat_append_eq_add, BitVec.toNat_ofBool, BitVec.toNat_ofNat]
  omega

theorem statusWord_toNat (c : Channel) : (statusWord c).toNat =
    (directionCode c.lastDir).toNat * 2 ^ 8 + (outEnable c).toNat * 2 ^ 6 + (errorCode c.error).toNat * 2 ^ 5 +
      c.limitSw.toNat * 2 ^ 4 + c.homeSw.toNat * 2 ^ 3 + (qdirCode c.qdir).toNat * 2 ^ 2 +
      (directionCode c.direction).toNat := by
  simp only [statusWord, toNat_append_eq_add, BitVec.toNat_ofBool, BitVec.toNat_ofNat]
  omega

theorem statusWord_direction (c : Channel) : (statusWord c).toNat % 4 = (directionCode c.direction).toNat := by
  rw [statusWord_toNat]
  omega

theorem statusWord_lastDir (c : Channel) : (statusWord c).toNat / 2 ^ 8 = (directionCode c.lastDir).toNat := by
  have hout := Bool.toNat_lt (outEnable c)
  have hlimit := Bool.toNat_lt c.limitSw
  have hhome := Bool.toNat_lt c.homeSw
  rw [statusWord_toNat]
  omega

/-- The bits of STATUS that stand alone (R155). -/
theorem statusWord_bits (c : Channel) :
    (statusWord c).getLsbD 2 = (qdirCode c.qdir).getLsbD 0 ∧ (statusWord c).getLsbD 3 = c.homeSw ∧
      (statusWord c).getLsbD 4 = c.limitSw ∧ (statusWord c).getLsbD 5 = (errorCode c.error).getLsbD 0 ∧
      (statusWord c).getLsbD 6 = outEnable c ∧ (statusWord c).getLsbD 7 = false := by
  simp only [statusWord, BitVec.getLsbD_append]
  simp

theorem qdirCode_bit (d : QDir) : (qdirCode d).getLsbD 0 = true ↔ d = .reverse := by cases d <;> decide

theorem errorCode_bit (e : MotorError) : (errorCode e).getLsbD 0 = true ↔ e = .overload := by cases e <;> decide

theorem outEnable_iff (c : Channel) : outEnable c = true ↔ c.mode = .positionControl := beq_iff_eq

/-! ### READs as numbers -/

/-- A READ of a channel register, given the number of its word (R150 to R162). -/
theorem exec_rd_number {m : Chan} {r : Reg} {s : State} {n : Nat} (h : (regWord (s.blk.chan m) r).toNat = n) :
    n < 2 ^ 32 ∧ exec (Instr.rd m r) s = .next { s with resp := some ⟨.okay, some (BitVec.ofNat 32 n)⟩ } := by
  cases h
  exact ⟨BitVec.isLt _, by rw [exec_rd, BitVec.ofNat_toNat, BitVec.setWidth_eq]⟩

/-- The same of a global register (R163 to R167). -/
theorem exec_rdGlobal_number {g : GReg} {s : State} {n : Nat} (h : (globalWord s.blk g).toNat = n) :
    n < 2 ^ 32 ∧ exec (Instr.rdGlobal g) s = .next { s with resp := some ⟨.okay, some (BitVec.ofNat 32 n)⟩ } := by
  cases h
  exact ⟨BitVec.isLt _, by rw [exec_rdGlobal, BitVec.ofNat_toNat, BitVec.setWidth_eq]⟩

/-! ### The registers after reset -/

/-- The reset column of R144's table for a channel register. -/
def resetWord (k : ChannelConfig) : Reg → Word
  | .pos | .prev => BitVec.ofInt 32 k.homeOffset
  | .drive => BitVec.ofNat 32 (k.dutyBrake * 256)
  | _ => 0

theorem statusWord_reset (k : ChannelConfig) : statusWord (Channel.resetWith k) = 0 := by
  apply BitVec.eq_of_toNat_eq
  rw [statusWord_toNat]
  simp [Channel.resetWith, directionCode, outEnable, errorCode, qdirCode]

/-- The braking duty fits its byte, above a speed of 0 (R9, R156). -/
theorem driveWord_reset {k : ChannelConfig} (h : k.dutyBrake ≤ 100) :
    driveWord (Channel.resetWith k) = BitVec.ofNat 32 (k.dutyBrake * 256) := by
  apply BitVec.eq_of_toNat_eq
  rw [driveWord_toNat]
  change k.dutyBrake % 2 ^ 8 * 2 ^ 8 + 0 = k.dutyBrake * 256 % 2 ^ 32
  omega

theorem stampWord_zero : stampWord ⟨0, 0⟩ = 0 := by decide

/-- Between two equal stamps no time has passed (R93). -/
theorem period_of_eq_stamps {c : Channel} (h : c.edge2 = c.edge1) : period c = 0 := by
  rw [period, h, sub_self, Int.zero_emod, zero_mul, zero_add, sub_self]
  rfl

/-- Every channel register reads its reset value after reset (R144, R189). -/
theorem regWord_reset {k : ChannelConfig} (h : k.dutyBrake ≤ 100) (r : Reg) :
    regWord (Channel.resetWith k) r = resetWord k r := by
  cases r with
  | pos | cmd | err | efferr | mode | integ | speed | prev | strike => rfl
  | status => exact statusWord_reset k
  | drive => exact driveWord_reset h
  | edge1 | edge2 => exact stampWord_zero
  | period =>
    rw [regWord, period_of_eq_stamps rfl]
    rfl

/-- Every global register reads 0 after reset (R144, R189). -/
theorem globalWord_reset (k : Config) (g : GReg) : globalWord (State.resetWith k).blk g = 0 := by
  cases g with
  | ystat =>
    apply BitVec.eq_of_toNat_eq
    rw [globalWord, ystatWord_toNat]
    simp [State.resetWith, Block.resetWith, yerrCode]
  | lrerr | ctrl | ovfcnt | phase => rfl

/-! ### The statements of the families -/

/-- Settles O41: the number of the data word names the mode, and the latches lock the channel. -/
theorem writeModeSetsALegalMode : Obligations.WriteModeSetsALegalMode := by
  intro m d s locked stored err
  have hlock : modeLocked m s.blk = true ↔ locked := modeLocked_iff m s.blk
  refine ⟨fun h0 => ?_, fun h1 hfree => ?_, fun h2 hfree => ?_, fun h12 hlocked => ?_, fun h3 => ?_⟩
  · exact exec_wrMode_stores (v := .disabled) h0 (.inl rfl)
  · exact exec_wrMode_stores (v := .manual) h1 (.inr (mt hlock.1 hfree))
  · exact exec_wrMode_stores (v := .positionControl) h2 (.inr (mt hlock.1 hfree))
  · rcases h12 with h1 | h2
    · exact exec_wrMode_locked (v := .manual) h1 nofun (hlock.2 hlocked)
    · exact exec_wrMode_locked (v := .positionControl) h2 nofun (hlock.2 hlocked)
  · exact exec_wrMode_reserved h3 m s

/-- Settles O42: the word 1 alone runs CLEAR, which is refused or clears everything. -/
theorem writeCtrlClearsAllOrNothing : Obligations.WriteCtrlClearsAllOrNothing := by
  intro d s persists
  refine ⟨fun h0 => exec_wrCtrl_zero h0 s, fun h1 hpersists => ?_, fun h1 hresolved => ?_,
    fun h2 => exec_wrCtrl_reserved h2 s⟩
  · rw [exec_wrCtrl_clears h1, clearFaults_refused hpersists]
  · rw [exec_wrCtrl_clears h1, clearFaults_accepted hresolved]; rfl

/-- Settles O43: the recovery accepts each of its five WRITEs, and the last state is written out. -/
theorem recoveryIsClearThenMode : Obligations.RecoveryIsClearThenMode := by
  intro s p q h
  exact ⟨_, runAll_recovery h, rfl, rfl, fun m => by cases m <;> exact ⟨rfl, rfl⟩, rfl, rfl, rfl, rfl, rfl, rfl⟩

/-- Settles O46: the two direction codes are the ends of the word's number, and the other fields are single bits. -/
theorem statusRegisterPacksItsFields : Obligations.StatusRegisterPacksItsFields := by
  intro m s
  refine ⟨regWord (s.blk.chan m) .status, exec_rd m .status s, ?_⟩
  intro c code
  have hcode (d : Direction) : (directionCode d).toNat = code d := by cases d <;> rfl
  obtain ⟨hqdir, hhome, hlimit, herror, hout, hzero⟩ := statusWord_bits c
  exact ⟨(statusWord_direction c).trans (hcode _), hqdir ▸ qdirCode_bit c.qdir, hhome, hlimit,
    herror ▸ errorCode_bit c.error, hout ▸ outEnable_iff c, hzero, (statusWord_lastDir c).trans (hcode _)⟩

/-- Settles O47: each register's word as the number its fields make. -/
theorem packedRegistersHoldTheirFields : Obligations.PackedRegistersHoldTheirFields := by
  intro m s c answers
  have hmode : (regWord c .mode).toNat = (modeCode c.mode).toNat := BitVec.toNat_setWidth_of_le (by decide)
  have hstrike : (regWord c .strike).toNat = c.strike.toNat := BitVec.toNat_setWidth_of_le (by decide)
  refine ⟨exec_rd_number (hmode.trans ?_), exec_rd_number (driveWord_toNat c), exec_rd_number hstrike,
    exec_rd_number (stampWord_toNat c.edge1), exec_rd_number (stampWord_toNat c.edge2),
    exec_rdGlobal_number (g := .ystat) ((ystatWord_toNat s.blk).trans ?_),
    exec_rdGlobal_number (g := .ovfcnt) (BitVec.toNat_setWidth_of_le (by decide)),
    exec_rdGlobal_number (g := .phase) (BitVec.toNat_setWidth_of_le (by decide))⟩
  · cases c.mode <;> rfl
  · cases s.blk.clrRefused <;> cases s.blk.yerr <;> rfl

/-- Settles O49: the WRITE decodes to an access with no rule. -/
theorem writesOutsideTheMapAnswerErr : Obligations.WritesOutsideTheMapAnswerErr := by
  intro s a d rest hwf hs hunmapped
  rw [step_write hwf hs, writeOperation_unmapped d hunmapped]
  rfl

/-- Settles O2: a register reads as its word, and every field but the positions and the duty is 0 after reset. -/
theorem registersReadTheirResetValues : Obligations.RegistersReadTheirResetValues := by
  intro k hwf m
  obtain ⟨hchan, -⟩ := (config_wf_iff k).1 hwf
  obtain ⟨-, -, hbrake⟩ := channelConfig_drive (hchan m)
  refine ⟨by rw [resetWith_chan]; rfl, fun r => ?_, fun g => ?_⟩
  · rw [exec_rd, resetWith_chan, regWord_reset hbrake]
    cases r <;> rfl
  · rw [exec_rdGlobal, globalWord_reset]

/-- Settles O39: reading the word as a number and storing it again gives the word. -/
theorem writePosLoadsThePosition : Obligations.WritePosLoadsThePosition := exec_wrPos_loads

/-- Settles O40: the word goes into the channel's record as it is. -/
theorem writeCmdStoresTheCommand : Obligations.WriteCmdStoresTheCommand :=
  fun d s => ⟨finishWrite_eq s (s.blk.setChan .x { s.blk.x with cmd := d }),
    finishWrite_eq s (s.blk.setChan .yl { s.blk.yl with cmd := d })⟩

/-- Settles O45: a READ answers its register's word, which is here the field's own. -/
theorem wordRegistersReadTheirField : Obligations.WordRegistersReadTheirField := fun m s =>
  ⟨exec_rd m .pos s, exec_rd m .cmd s, exec_rd m .err s, exec_rd m .efferr s, exec_rd m .integ s, exec_rd m .speed s,
    exec_rd m .prev s, exec_rdGlobal .lrerr s, exec_rdGlobal .ctrl s⟩

/-- Settles O1: a channel's record after reset is R189's column under the channel's parameters. -/
theorem resetValuesOfEveryField : Obligations.ResetValuesOfEveryField := by
  intro k m b c
  have hc : c = Channel.resetWith (k.chan m) := resetWith_chan k m
  rw [hc]
  and_intros <;> rfl

end Sys2Proof.Machine
